-- ==== Sys2Proof/Word.lean ====
section
/-! DEFINITION. The word types of AMIO: bytes (spec/20_memory.md R47: every access moves one byte), command words (spec/30_encoding.md R60) and hex digits. -/

namespace Sys2Proof

/-- A byte: operand, register of the bus interface, serial byte (R47). -/
abbrev Byte := BitVec 8

/-- The host command word `cmd[31:0]` (R60). -/
abbrev CmdWord := BitVec 32

/-- The result word `res[15:0]` (R74). -/
abbrev ResWord := BitVec 16

/-- A 4-bit half of a byte, one hex character of the operator (R9). -/
abbrev Nibble := BitVec 4

/-- `zext_8` of a hex digit (R7). -/
def Nibble.toByte (n : Nibble) : Byte := n.setWidth 8

end Sys2Proof
end

