-- ==== Sys2Proof/Syntax.lean ====
section
/-! DEFINITION. The instructions of AMIO: one constructor per row of spec/opcode_table.json (spec/30_encoding.md R80). -/

namespace Sys2Proof

/-- The three host commands, the two pseudo-operations of the host and the six control words (R80). -/
inductive Instr where
  /-- `READREG sa, ra, count`: read `count` bytes from register `ra` of slave `sa` (R61, R90). -/
  | readreg (sa ra count : Byte)
  /-- `POLLCHAR` or `POLLCHAR echo` (R62, R132). -/
  | pollchar (echo : Bool)
  /-- `WRITECHAR byte` (R63, R134). -/
  | writechar (byte : Byte)
  /-- `WRITESTRING text`: no command word of its own (R79, R135). -/
  | writestring (text : List Byte)
  /-- `WRITELINE text`: no command word of its own (R79, R136). -/
  | writeline (text : List Byte)
  /-- Generate a START condition (R70, R96). -/
  | cwStart
  /-- Generate a REPEATED START condition (R70, R99). -/
  | cwRstart
  /-- Transmit the byte in `DATA` (R70, R97, R98, R100). -/
  | cwTx
  /-- Receive one byte into `DATA`, then send ACK (R70, R101, R102). -/
  | cwRxAck
  /-- Receive one byte into `DATA`, then send NACK (R70, R101, R102). -/
  | cwRxNack
  /-- Generate a STOP condition (R70, R103). -/
  | cwStop
  deriving DecidableEq, Repr

end Sys2Proof
end

