-- ==== Sys2Proof/Config.lean ====
section
/-! DEFINITION. The configuration record of spec/00_scope.md R6 with the platform's and the host's variants, the moves of the agents (R8), and the opaque constants that stand for what the spec leaves open. -/

namespace Sys2Proof

/-- The six bus actions SEQ can ask for (spec/30_encoding.md R70). -/
inductive ControlWord where
  | start | rstart | tx | rxAck | rxNack | stop
  deriving DecidableEq, Repr, Inhabited

/-- The instruction a control word is (R70, R80). -/
def ControlWord.instr : ControlWord → Instr
  | .start => .cwStart
  | .rstart => .cwRstart
  | .tx => .cwTx
  | .rxAck => .cwRxAck
  | .rxNack => .cwRxNack
  | .stop => .cwStop

/-- The names of the bus-status codes (R72). -/
inductive StatusName where
  | start | rstart | slawAck | dataTxAck | slarAck | dataRxAck | dataRxNack
  deriving DecidableEq, Repr, Inhabited

/-- The map `STATUS_CODE`, as data (R6, R72). -/
structure StatusCodes where
  start : Byte
  rstart : Byte
  slawAck : Byte
  dataTxAck : Byte
  slarAck : Byte
  dataRxAck : Byte
  dataRxNack : Byte
  deriving DecidableEq, Repr

/-- `STATUS_CODE(name)` (R72). -/
def StatusCodes.code (c : StatusCodes) : StatusName → Byte
  | .start => c.start
  | .rstart => c.rstart
  | .slawAck => c.slawAck
  | .dataTxAck => c.dataTxAck
  | .slarAck => c.slarAck
  | .dataRxAck => c.dataRxAck
  | .dataRxNack => c.dataRxNack

/-- The values of the map in the order of R72's table. -/
def StatusCodes.values (c : StatusCodes) : List Byte :=
  [c.start, c.rstart, c.slawAck, c.dataTxAck, c.slarAck, c.dataRxAck, c.dataRxNack]

/-- The default numbers of R72 (from general knowledge, 93 G8; no claim may rest on them). -/
def StatusCodes.default : StatusCodes :=
  ⟨0x08, 0x10, 0x18, 0x28, 0x40, 0x50, 0x58⟩

/-- The map `CW_CODE`, as data (R6, R70). -/
structure CwCodes where
  start : Byte
  rstart : Byte
  tx : Byte
  rxAck : Byte
  rxNack : Byte
  stop : Byte
  deriving DecidableEq, Repr

/-- `CW_CODE(cw)` (R70). -/
def CwCodes.code (c : CwCodes) : ControlWord → Byte
  | .start => c.start
  | .rstart => c.rstart
  | .tx => c.tx
  | .rxAck => c.rxAck
  | .rxNack => c.rxNack
  | .stop => c.stop

/-- The values of the map in the order of R70's table. -/
def CwCodes.values (c : CwCodes) : List Byte :=
  [c.start, c.rstart, c.tx, c.rxAck, c.rxNack, c.stop]

/-- The codes of R70's table: `TXN[7:3] = 0`, `TXN[2:0] = code`. -/
def CwCodes.default : CwCodes := ⟨0, 1, 2, 3, 4, 5⟩

/-- `COUNT_MAX` of this hardware: what an 8-bit count can say (R6, 92 D10). -/
def countMaxHere : Nat := 255

/-- The configuration record (R6), fixed for a run (spec/10_state.md R11(a)). The last six fields are the variants of the
platform and of the host software that the spec names. -/
structure Params where
  /-- `SA_BITS`: of the 8-bit latch `SA`, the low bits that reach the bus (R66). -/
  saBits : Nat
  /-- `RA_BITS`: the width of the type of `RA`. -/
  raBits : Nat
  /-- `DATA_BITS`: the width of `Byte`. -/
  dataBits : Nat
  /-- `COUNT_MAX`: the number of entries of `RBUF` (R16). -/
  countMax : Nat
  /-- `TIMEOUT_POLLS` (R93). -/
  timeoutPolls : Option Nat
  /-- `VALIDATE_RSTART` (R99). -/
  validateRstart : Bool
  /-- `STOP_EXPLICIT` (R103). -/
  stopExplicit : Bool
  /-- `STATUS_CODE` (R72). -/
  statusCode : StatusCodes
  /-- `CW_CODE` (R70). -/
  cwCode : CwCodes
  /-- `RXQ_DEPTH`; `none` is unbounded (R31, R140). -/
  rxqDepth : Option Nat
  /-- `ECHO_EOL` (R132). -/
  echoEol : List Byte
  /-- `BAUD`: no rule depends on it (R44). -/
  baud : Nat
  /-- `SCL_HZ`: no rule depends on it (R240). -/
  sclHz : Nat
  /-- `TICK_HZ`: the environment's, no rule of the block depends on it (R194). -/
  tickHz : Nat
  /-- Whether the platform connects `MASK_REQ` (R24, R229). -/
  maskConnected : Bool
  /-- Whether the tick callback invokes the menu (R163) or a main loop does (R165). -/
  menuFromTick : Bool
  /-- Whether the menu polls with echo, the caller-selected option of R132. -/
  menuEcho : Bool
  /-- `SURFACE_ERR` (R157). -/
  surfaceErr : Bool
  /-- Whether the tick scheduler's last-observed value follows its own write (R162, 91 N14). -/
  ownWriteSeen : Bool
  /-- The quote character of the unknown-option message (90 C4). -/
  quoteChar : Byte
  deriving DecidableEq, Repr

/-- What R6 requires of the parameters: the widths and the largest count it fixes, injective maps, a queue of at least one byte,
a timeout of at least one poll (R93). -/
def Params.wf (c : Params) : Bool :=
  c.saBits == 7 && c.raBits == 8 && c.dataBits == 8 && c.countMax == countMaxHere
    && decide c.statusCode.values.Nodup && decide c.cwCode.values.Nodup
    && c.rxqDepth.all (1 ≤ ·) && c.timeoutPolls.all (1 ≤ ·)

/-- What an agent may do next. The agents are those of R8; the arguments are the oracle's answers (R11(c)). -/
inductive Move where
  /-- `rst` is asserted in this step (R220). -/
  | rst
  /-- The command port takes the presented command if it can (R23, R94, R133, R134). -/
  | accept
  /-- SEQ's step in a waiting phase (R93, R95). -/
  | seq
  /-- CCH's step while it sends (R131, R133, R134). -/
  | cch
  /-- The host software's next operation (R155). -/
  | host
  /-- A requester puts a word on the command port, which must not hold another's (R23, R34). -/
  | present (w : CmdWord)
  /-- A requester takes a reserved word off the command port (R34, R65). -/
  | withdraw
  /-- The host selects an entry of the receive buffer (R34, R41(a)). -/
  | selectRbuf (i : Byte)
  /-- BUSIF completes the pending action with this status, and this byte in `DATA`: the one received, or, after an action that
  is not a receive, the unspecified value `DATA` then has (R106, R27, 93 U8). -/
  | complete (status data : Byte)
  /-- BUSIF clears a pending CW_STOP without reporting completion (R30, R106). -/
  | dropStop
  /-- A byte arrives on the serial line (R31, R140). -/
  | arrive (b : Byte)
  /-- SERIAL sets `TX_ROOM` to 1 (R140). -/
  | room
  /-- SERIAL sets `TX_ROOM` to 0 (R32, R140). -/
  | full
  /-- The periodic interrupt fires (R161, R194). -/
  | tick
  /-- A main loop invokes the menu (R165). -/
  | mainLoop
  /-- An outside actor writes the output latch (R160, R161). -/
  | latch (v : Byte)
  /-- An agent other than SEQ writes `TXN` (R25, R26). -/
  | pokeTxn (w : Byte)
  /-- An agent other than SEQ writes `DATA` (R25, R27). -/
  | pokeData (b : Byte)
  deriving DecidableEq, Repr, Inhabited

/-! ## Free values and OPEN parameters: opaque constants without a body -/

/-- The move at the n-th free choice, once the script of the state is used up (R8, R11(c)). -/
opaque Config.oracle : Nat → Move
/-- The n-th drawn `any` (R7). -/
opaque Config.freeByte : Nat → Byte

/-- `RXQ_DEPTH`, OPEN (R6). -/
opaque Config.rxqDepthLess1 : Option Nat
/-- What has arrived by the end of reset: the model must not assume `RXQ` empty then (R31, R221). -/
opaque Config.rxqAtReset : List Byte
/-- `BAUD`, OPEN (R6). -/
opaque Config.baud : Nat
/-- `SCL_HZ`, OPEN (R6). -/
opaque Config.sclHz : Nat
/-- Whether this platform connects `MASK_REQ` (R24). -/
opaque Config.maskConnected : Bool
/-- Whether the menu polls with echo (R132). -/
opaque Config.menuEcho : Bool
/-- The point 91 N14 leaves open. -/
opaque Config.ownWriteSeen : Bool

/-- The nine lines of the main menu (R170, 91 N10). -/
opaque Config.mainLine : Fin 9 → List Byte
/-- The fixed message of MAIN's `a` (R170, 91 N10). -/
opaque Config.mainMessage : List Byte
/-- The static text of SECONDARY (R171, 91 N16). -/
opaque Config.secondaryLines : List (List Byte)
/-- The static text of LED_TOGGLE (R172, 91 N10). -/
opaque Config.ledLines : List (List Byte)
/-- The menu lines of BUS_MENU (R173, 91 N10). -/
opaque Config.busLines : List (List Byte)
/-- The static text of BUS_SET_SLAVE (R174, 91 N10). -/
opaque Config.setSlaveLines : List (List Byte)
/-- The static text of BUS_SET_REGISTER, which need not be that of BUS_SET_SLAVE (R174, 91 N10). -/
opaque Config.setRegisterLines : List (List Byte)
/-- What stands before the slave address, between the addresses and after them in BUS_MENU's address line (R173). -/
opaque Config.addressText : Fin 3 → List Byte
/-- The farewell line (R175, 91 N10). -/
opaque Config.farewell : List Byte
/-- The visible message on `Err` (R157, 91 N13). DESIGN CHOICE (log 23): one message for both reads and both reasons. -/
opaque Config.errMessage : List Byte
/-- The slave address of the sensor read behind `p` (91 N11). -/
opaque Config.sensorSlave : Byte
/-- The register address of the sensor read behind `p` (91 N11). -/
opaque Config.sensorRegister : Byte
/-- One less than the count of the sensor read behind `p`: a count is positive (R61, 91 N11). -/
opaque Config.sensorCountLess1 : Fin 255
/-- The pure formatting function of the sensor's bytes (R5(c)). -/
opaque Config.sensorText : List Byte → List Byte

/-- The parameters of this hardware (R6's table; D32 for `SURFACE_ERR`; R163 for the caller of the menu). -/
def Params.thisHardware : Params where
  saBits := 7
  raBits := 8
  dataBits := 8
  countMax := countMaxHere
  timeoutPolls := none
  validateRstart := false
  stopExplicit := false
  statusCode := .default
  cwCode := .default
  rxqDepth := Config.rxqDepthLess1.map (· + 1)
  echoEol := [0x0D, 0x0A]
  baud := Config.baud
  sclHz := Config.sclHz
  tickHz := 1000
  maskConnected := Config.maskConnected
  menuFromTick := true
  menuEcho := Config.menuEcho
  surfaceErr := true
  ownWriteSeen := Config.ownWriteSeen
  quoteChar := 0x27

end Sys2Proof
end

