-- ==== Sys2Proof/WellFormed.lean ====
section
/-! DEFINITION. Which instructions are well formed: the one constraint the encodings place on operands (spec/30_encoding.md R61, R65). -/

namespace Sys2Proof

/-- `count` is a positive integer: the value 0 is a reserved encoding (R61, R65; spec/93_implementation_defined.md U1). -/
def countOk (count : Byte) : Bool := count != 0

/-- The well-formed instructions: READREG needs a positive count; every other operand value is legal (R65, R67). -/
def Instr.wf : Instr → Bool
  | .readreg _ _ count => countOk count
  | .pollchar _ => true
  | .writechar _ => true
  | .writestring _ => true
  | .writeline _ => true
  | .cwStart => true
  | .cwRstart => true
  | .cwTx => true
  | .cwRxAck => true
  | .cwRxNack => true
  | .cwStop => true

end Sys2Proof
end

