-- ==== Sys2Proof/Decode.lean ====
section
/-! DEFINITION. The decoder of host command words and control words, total and rejecting by name (spec/30_encoding.md R60 to R65, R70, R71), and after it the encoder, written from the same tables. -/

namespace Sys2Proof

/-- Why a word is reserved (R65, R71). -/
inductive Reserved where
  /-- `op` is 0x0 or 0x4 to 0xF. -/
  | op
  /-- `cmd[27:24]` is not 0. -/
  | zeroField
  /-- READREG with `count = 0`. -/
  | zeroCount
  /-- POLLCHAR with one of `cmd[23:1]` set. -/
  | pollField
  /-- WRITECHAR with one of `cmd[23:8]` set. -/
  | writeField
  /-- A control word that is none of the six codes (R71). -/
  | controlCode
  deriving DecidableEq, Repr

/-- The fields of format H (R60). -/
def cmdOp (w : CmdWord) : BitVec 4 := w.extractLsb' 28 4
def cmdZero (w : CmdWord) : BitVec 4 := w.extractLsb' 24 4
def cmdCount (w : CmdWord) : Byte := w.extractLsb' 16 8
def cmdSa (w : CmdWord) : Byte := w.extractLsb' 8 8
def cmdRa (w : CmdWord) : Byte := w.extractLsb' 0 8
def cmdEcho (w : CmdWord) : Bool := w.getLsbD 0

/-- READREG's row (R61, R65). -/
def decodeReadreg (w : CmdWord) : Except Reserved Instr :=
  if cmdCount w = 0 then .error .zeroCount else .ok (.readreg (cmdSa w) (cmdRa w) (cmdCount w))

/-- POLLCHAR's row (R62, R65). -/
def decodePollchar (w : CmdWord) : Except Reserved Instr :=
  if w.extractLsb' 1 23 = 0 then .ok (.pollchar (cmdEcho w)) else .error .pollField

/-- WRITECHAR's row (R63, R65). -/
def decodeWritechar (w : CmdWord) : Except Reserved Instr :=
  if w.extractLsb' 8 16 = 0 then .ok (.writechar (cmdRa w)) else .error .writeField

/-- The decoder of command words: `op`, then the zero fields; total on all 2^32 words (R64, R65). -/
def decodeCommand (w : CmdWord) : Except Reserved Instr :=
  if cmdZero w ≠ 0 then .error .zeroField
  else if cmdOp w = 1 then decodeReadreg w
  else if cmdOp w = 2 then decodePollchar w
  else if cmdOp w = 3 then decodeWritechar w
  else .error .op

/-- The decoder of control words under a map `CW_CODE` (R70, R71). -/
def decodeControl (c : CwCodes) (b : Byte) : Except Reserved ControlWord :=
  if b = c.start then .ok .start
  else if b = c.rstart then .ok .rstart
  else if b = c.tx then .ok .tx
  else if b = c.rxAck then .ok .rxAck
  else if b = c.rxNack then .ok .rxNack
  else if b = c.stop then .ok .stop
  else .error .controlCode

/-- The host's question: the instruction read from a row of `nbits` bits holding `w`. Command words have 32 bits, control
words 8 (R64, R70); the pseudo-operations have no word (R79). -/
def decodeTableWord (nbits w : Nat) : Option Instr :=
  if nbits = 32 then (decodeCommand (BitVec.ofNat 32 w)).toOption
  else if nbits = 8 then (decodeControl .default (BitVec.ofNat 8 w)).toOption.map ControlWord.instr
  else none

/-! ## The encoder -/

/-- A word of an instruction: on the command port or in `TXN`. -/
inductive Code where
  | command (w : CmdWord)
  | control (b : Byte)
  deriving DecidableEq, Repr

/-- READREG's word: `0x1 ++ 0x0 ++ count ++ sa ++ ra` (R61). -/
def encodeReadreg (sa ra count : Byte) : CmdWord := 0x1#4 ++ 0x0#4 ++ count ++ sa ++ ra

/-- POLLCHAR's word: `0x2 ++ 0x000000 ++ 0b000 ++ echo` (R62). -/
def encodePollchar (echo : Bool) : CmdWord := 0x2#4 ++ 0x000000#24 ++ 0b000#3 ++ BitVec.ofBool echo

/-- WRITECHAR's word: `0x3 ++ 0x00000 ++ byte` (R63). -/
def encodeWritechar (byte : Byte) : CmdWord := 0x3#4 ++ 0x00000#20 ++ byte

/-- The command word of an instruction that has one (R61 to R63). -/
def commandWord : Instr → Option CmdWord
  | .readreg sa ra count => some (encodeReadreg sa ra count)
  | .pollchar echo => some (encodePollchar echo)
  | .writechar byte => some (encodeWritechar byte)
  | .writestring _ => none
  | .writeline _ => none
  | .cwStart => none
  | .cwRstart => none
  | .cwTx => none
  | .cwRxAck => none
  | .cwRxNack => none
  | .cwStop => none

/-- The control word an instruction is, if it is one (R70, R80). -/
def controlWord : Instr → Option ControlWord
  | .readreg _ _ _ => none
  | .pollchar _ => none
  | .writechar _ => none
  | .writestring _ => none
  | .writeline _ => none
  | .cwStart => some .start
  | .cwRstart => some .rstart
  | .cwTx => some .tx
  | .cwRxAck => some .rxAck
  | .cwRxNack => some .rxNack
  | .cwStop => some .stop

/-- The one word of an instruction that has a word of its own, under a map `CW_CODE`. -/
def codeOf (c : CwCodes) (i : Instr) : Option Code :=
  match commandWord i, controlWord i with
  | some w, _ => some (.command w)
  | none, some cw => some (.control (c.code cw))
  | none, none => none

/-- The instruction one word stands for. -/
def decode (c : CwCodes) : Code → Except Reserved Instr
  | .command w => decodeCommand w
  | .control b => (decodeControl c b).map ControlWord.instr

/-- The instructions with words of their own that an instruction expands to: itself, but for the pseudo-operations (R79). -/
def expand : Instr → List Instr
  | .readreg sa ra count => [.readreg sa ra count]
  | .pollchar echo => [.pollchar echo]
  | .writechar byte => [.writechar byte]
  | .writestring text => text.map .writechar
  | .writeline text => text.map .writechar ++ [.writechar 0x0D, .writechar 0x0A]
  | .cwStart => [.cwStart]
  | .cwRstart => [.cwRstart]
  | .cwTx => [.cwTx]
  | .cwRxAck => [.cwRxAck]
  | .cwRxNack => [.cwRxNack]
  | .cwStop => [.cwStop]

/-- All words of an instruction, in order; a pseudo-operation's are those of its expansion (R79). -/
def encode (c : CwCodes) (i : Instr) : List Code := (expand i).filterMap (codeOf c)

end Sys2Proof
end

