-- ==== Sys2Proof/Machine/State.lean ====
section
/-! DEFINITION. The state of AMIO and of the agents around it, as plain data, and its value after reset (spec/10_state.md; spec/45_host_software.md R150 to R152, R161; spec/70_reset_and_hazards.md R221). -/

namespace Sys2Proof.Machine

/-- The phase register's values (R14). -/
inductive Phase where
  | idle | wStart | wSlaw | wReg | wRstart | wSlar | wData
  deriving DecidableEq, Repr

/-- The reasons of a failed READREG (R77, R190). -/
inductive Reason where
  | protocolError | timeout
  deriving DecidableEq, Repr

/-- The result register's values (R17). -/
inductive BusResult where
  | none | ok | err (r : Reason)
  deriving DecidableEq, Repr

/-- The character channel's phases (R19). -/
inductive CharPhase where
  | idle | echo | write
  deriving DecidableEq, Repr

/-- CharacterResult; `value` holds a drawn value while `success` is false (R38, R76). -/
structure CharResult where
  success : Bool
  value : Byte
  deriving DecidableEq, Repr

/-- A submitted control word, with the value `DATA` had at the submit when it is CW_TX (R30). -/
inductive Action where
  | start | rstart | tx (b : Byte) | rxAck | rxNack | stop
  deriving DecidableEq, Repr

/-- The entries of `EVLOG` (R37). -/
inductive Event where
  | submit (a : Action)
  | complete (status : Byte)
  | completeRx (status data : Byte)
  | pop (b : Byte)
  | push (b : Byte)
  deriving DecidableEq, Repr

/-- The commands a result can belong to: the `op` values of R60. -/
inductive CommandKind where
  | readreg | pollchar | writechar
  deriving DecidableEq, Repr

/-- Byte memory: cells in strictly rising order of address. An address that is not listed holds no value (R38). -/
abbrev Memory := List Host.Cell

/-- SEQ's latches, phase and result (R13 to R18). -/
structure Seq where
  /-- `SA`. -/
  sa : Byte
  /-- `RA`. -/
  ra : Byte
  /-- `CNT`. -/
  cnt : Byte
  /-- `PH`. -/
  ph : Phase
  /-- `IDX`. -/
  idx : Byte
  /-- `RBUF`. -/
  rbuf : Memory
  /-- `RES`. -/
  res : BusResult
  /-- `POLLS`. -/
  polls : Nat
  deriving DecidableEq, Repr

/-- CCH's latches (R19). -/
structure Cch where
  /-- `CPH`. -/
  cph : CharPhase
  /-- `CB`; it holds no value while CCH is idle (R38, log 8). -/
  cb : Byte
  /-- `CQ`. -/
  cq : List Byte
  /-- `CRES`. -/
  cres : Option CharResult
  deriving DecidableEq, Repr

/-- The command port, the result port and the read port of the receive buffer (R34, R74). -/
structure Port where
  /-- `cmd_valid`. -/
  cmdValid : Bool
  /-- `cmd`. -/
  cmd : CmdWord
  /-- `res_valid`. -/
  resValid : Bool
  /-- The command the result belongs to: the field `rop` of `res`. -/
  rop : Option CommandKind
  /-- `rbuf_idx`. -/
  rbufIdx : Byte
  deriving DecidableEq, Repr

/-- The bus-interface registers and BUSIF's pending action (R26 to R30). -/
structure Busif where
  /-- `TXN`: write-only, the value last written. -/
  txn : Byte
  /-- `DATA`. -/
  data : Byte
  /-- `STATUS`. -/
  status : Byte
  /-- `DONE`. -/
  done : Bool
  /-- `PENDING`. -/
  pending : Option Action
  /-- The model's own: `DATA` has been written since the last submit. While `DONE = 0` and this is not so, `DATA` holds no value
  (R38). -/
  dataPoked : Bool
  deriving DecidableEq, Repr

/-- The serial transport as the block sees it (R31, R32). -/
structure Serial where
  /-- `RXQ`, oldest byte first. -/
  rxq : List Byte
  /-- `TX_ROOM`. -/
  txRoom : Bool
  deriving DecidableEq, Repr

/-- MenuState (R151). -/
inductive MenuState where
  | uninitialized | main | secondary | ledToggle | busMenu | busSetSlave | busSetRegister | exit
  deriving DecidableEq, Repr

/-- PendingDigitEntry (R150). -/
structure DigitEntry where
  haveFirstNibble : Bool
  accumulatedValue : Byte
  deriving DecidableEq, Repr

/-- The BusAddress pair as the host stores it (R150; 90 C1: the stored slave address is a byte). -/
structure BusAddress where
  slaveAddress : Byte
  registerAddress : Byte
  deriving DecidableEq, Repr

/-- MenuContext (R150). -/
structure MenuContext where
  currentState : MenuState
  entry : DigitEntry
  addr : BusAddress
  screenPrinted : Bool
  tickCounter : Nat
  deriving DecidableEq, Repr

/-- An operation of the host software: a command or pseudo-operation to issue, or a point at which the menu goes on after the
command before it (R155, R173, R177). -/
inductive HostOp where
  /-- Issue this instruction. -/
  | issue (i : Instr)
  /-- The menu looks at the result of its POLLCHAR. -/
  | dispatch
  /-- The static text of the screen has been emitted. -/
  | printed
  /-- The menu acts on the byte its POLLCHAR took. -/
  | key (b : Byte)
  /-- BUS_MENU prints the byte its READREG read. -/
  | showRead
  /-- MAIN prints the sensor value its READREG read. -/
  | showSensor
  deriving DecidableEq, Repr

/-- The host software: menu context, tick scheduler and the operations not yet begun (R150, R161, R163). -/
structure HostSoftware where
  menu : MenuContext
  /-- The "still running" flag (R163, R175). -/
  running : Bool
  /-- No input byte has been dispatched since the current menu state was entered (R173: "first entry (no input yet)"). -/
  freshEntry : Bool
  /-- The scheduler's last-observed latch value (R161). -/
  lastSeen : Byte
  /-- The scheduler's next pattern (R161). -/
  nextPattern : Byte
  /-- The scheduler's elapsed-tick counter (R162). -/
  elapsed : Nat
  /-- Operations not yet begun; those of an inner call stand before those of its caller. -/
  prog : List HostOp
  /-- The host has issued a command and has not gone on with its result yet. -/
  awaiting : Bool
  deriving DecidableEq, Repr

/-- The state of the model. -/
structure State where
  /-- The configuration record: no step changes it (R11(a)). -/
  cfg : Params
  seq : Seq
  cch : Cch
  port : Port
  bus : Busif
  serial : Serial
  /-- `LATCH` (R33, R160). -/
  latch : Byte
  host : HostSoftware
  /-- `EVLOG`, ghost (R37). -/
  evlog : List Event
  /-- The model's own: the moves already fixed, in order (R8, R11(c): a test may fix the oracle by a script). -/
  script : List Move
  /-- The model's own: how many free values have been drawn. -/
  freeIdx : Nat
  deriving DecidableEq, Repr

/-- Why the machine stops with a fault. -/
inductive Fault where
  /-- Raised by SEQ's data-byte step (R102) when `IDX` is no entry of `RBUF` (R16). Safe: the machine stops; the invariant
  `State.Inv` rules it out. -/
  | rbufOutOfRange
  deriving DecidableEq, Repr

/-- Why the model gives a step no meaning. -/
inductive Refusal where
  /-- Raised by `exec`'s arm of an instruction without a meaning: none is left. Safe. -/
  | notModelled (mnemonic : String)
  /-- Raised by a write of `TXN` or `DATA` by an agent other than SEQ while `PH` is not IDLE, and by a control word executed
  in a phase that awaits another one: outside the contract (R25, 93 U4). Safe. -/
  | pokeWhileBusy
  /-- Raised by a write of `TXN` with a reserved control word: what BUSIF does is outside the block (R71, 93 U6). Safe. -/
  | reservedControlWord
  /-- Raised by the host's menu on an input byte that is not printable: what the menu does is not stated (R170, 93 U16).
  Safe. -/
  | nonPrintableByte
  deriving DecidableEq, Repr

/-- SEQ after reset (R39, R221); `RBUF` holds no value. -/
def Seq.reset : Seq where
  sa := 0
  ra := 0
  cnt := 0
  ph := .idle
  idx := 0
  rbuf := []
  res := .none
  polls := 0

/-- CCH after reset (R39, R221). DESIGN CHOICE: `CB`, unspecified, is 0 here. -/
def Cch.reset : Cch where
  cph := .idle
  cb := 0
  cq := []
  cres := none

/-- The ports after reset (R39). DESIGN CHOICE: the inputs present no command and select entry 0. -/
def Port.reset : Port where
  cmdValid := false
  cmd := 0
  resValid := false
  rop := none
  rbufIdx := 0

/-- BUSIF at the start. DESIGN CHOICE for every field: the spec leaves them to BUSIF (R221); `PENDING = none` is R226(a). -/
def Busif.reset : Busif where
  txn := 0
  data := 0
  status := 0
  done := false
  pending := none
  dataPoked := false

/-- The first bytes of a list, as many as a queue of this depth holds. -/
def capped (depth : Option Nat) (q : List Byte) : List Byte :=
  match depth with
  | none => q
  | some d => q.take d

/-- SERIAL at the start: `RXQ` holds any bytes its capacity allows (R31, R221). DESIGN CHOICE: `TX_ROOM`, unspecified, is 0. -/
def Serial.reset : Serial where
  rxq := capped Params.thisHardware.rxqDepth Config.rxqAtReset
  txRoom := false

/-- MenuContext at process start (R152, R221). DESIGN CHOICE: the fields R152 does not name are zero. -/
def MenuContext.start : MenuContext where
  currentState := .uninitialized
  entry := ⟨false, 0⟩
  addr := ⟨0, 0⟩
  screenPrinted := false
  tickCounter := 0

/-- The host software at process start (R227). DESIGN CHOICE: the scheduler's variables, not stated, start as in 95 V58. -/
def HostSoftware.start : HostSoftware where
  menu := .start
  running := true
  freshEntry := true
  lastSeen := 0x00
  nextPattern := 0xFF
  elapsed := 0
  prog := []
  awaiting := false

/-- The machine right after reset (R39, R221). -/
def State.reset : State where
  cfg := .thisHardware
  seq := .reset
  cch := .reset
  port := .reset
  bus := .reset
  serial := .reset
  latch := 0
  host := .start
  evlog := []
  script := []
  freeIdx := 0

end Sys2Proof.Machine
end

