-- ==== Sys2Proof/Machine/Flags.lean ====
section
/-! DEFINITION. The flags and the other derived outputs of the block (spec/10_state.md R20 to R24, R31, R34; spec/30_encoding.md R74 to R77; spec/60_exceptions.md R196). -/

namespace Sys2Proof.Machine

/-- `BUSY = (PH != IDLE) or (CPH != C_IDLE)` (R20). -/
def busy (s : State) : Bool := s.seq.ph != .idle || s.cch.cph != .idle

/-- `MASK_REQ = (PH != IDLE)` (R20, R24). -/
def maskReq (s : State) : Bool := s.seq.ph != .idle

/-- `cmd_ready = not BUSY` (R34). -/
def cmdReady (s : State) : Bool := !busy s

/-- `RX_AVAIL`: 1 exactly when `RXQ` is not empty (R20, R31). -/
def rxAvail (s : State) : Bool := !s.serial.rxq.isEmpty

/-- `RX_DATA`: the head of `RXQ`, meaningful only while `RX_AVAIL = 1` (R31). -/
def rxData (s : State) : Option Byte := s.serial.rxq.head?

/-- The `op` code of a command (R60), the field `rop` of its result (R74). -/
def CommandKind.op : CommandKind → BitVec 4
  | .readreg => 0x1
  | .pollchar => 0x2
  | .writechar => 0x3

/-- The reason codes of R77. -/
def Reason.code : Reason → BitVec 2
  | .protocolError => 0b01
  | .timeout => 0b10

/-- The format R: `rop`, two zeros, `rs`, `rv` (R74). -/
def resFormat (k : CommandKind) (rs : BitVec 2) (rv : Byte) : ResWord := k.op ++ 0b00#2 ++ rs ++ rv

/-- The result word of a READREG: `CNT` when `Ok`, 0 with the reason code when `Err` (R74, R75, R77). -/
def resReadreg (q : Seq) : Option ResWord :=
  match q.res with
  | .ok => some (resFormat .readreg 0b00 q.cnt)
  | .err r => some (resFormat .readreg r.code 0)
  | .none => none

/-- The result word of a POLLCHAR (R74, R76). -/
def resPollchar (c : Cch) : Option ResWord :=
  c.cres.map fun r => resFormat .pollchar (if r.success then 0b01 else 0b00) r.value

/-- `res`, valid while `res_valid = 1` (R74). -/
def resWord (s : State) : Option ResWord :=
  if s.port.resValid then
    match s.port.rop with
    | some .readreg => resReadreg s.seq
    | some .pollchar => resPollchar s.cch
    | some .writechar => some (resFormat .writechar 0b00 0)
    | none => none
  else none

/-- The bytes of `EVLOG` that were pushed. -/
def Event.pushed? : Event → Option Byte
  | .push b => some b
  | .submit _ | .complete _ | .completeRx _ _ | .pop _ => none

/-- The control words of `EVLOG` that were submitted. -/
def Event.submitted? : Event → Option Action
  | .submit a => some a
  | .push _ | .complete _ | .completeRx _ _ | .pop _ => none

/-- The bytes of `EVLOG` that were popped. -/
def Event.popped? : Event → Option Byte
  | .pop b => some b
  | .push _ | .complete _ | .completeRx _ _ | .submit _ => none

/-- `TXLOG`: the sublist of pushed bytes (R37). -/
def txlog (s : State) : List Byte := s.evlog.filterMap Event.pushed?

/-- The submits recorded in a log, in order (R110). -/
def submits (log : List Event) : List Action := log.filterMap Event.submitted?

end Sys2Proof.Machine
end

