-- ==== Sys2Proof/Machine/Operands.lean ====
section
/-! DEFINITION. Operand assembly and the four computations of SEQ (spec/30_encoding.md R66, R67, R73; spec/40_bus_sequencer.md R101, R107), and the hex helpers of the host (spec/45_host_software.md R178, R179). -/

namespace Sys2Proof.Machine

/-- The direction bit of the address byte: 0 for WRITE, 1 for READ (R66). -/
inductive Direction where
  | write | read
  deriving DecidableEq, Repr

/-- The direction bit as a byte. -/
def Direction.bit : Direction → Byte
  | .write => 0
  | .read => 1

/-- `AB(rw) = trunc_8((SA << 1) | rw)` (R66, R107(a)). -/
def addressByte (sa : Byte) (d : Direction) : Byte := (sa <<< 1) ||| d.bit

/-- `IDX = CNT - 1`, compared as unsigned 8-bit values (R102, R107(c)). -/
def isLast (idx cnt : Byte) : Bool := idx == cnt - 1

/-- `rxword(i)`: NACK for the last byte, ACK for the others (R101). -/
def rxword (idx cnt : Byte) : ControlWord := if isLast idx cnt then .rxNack else .rxAck

/-- The status expected at a data byte's completion (R73, R102). -/
def rxExpected (last : Bool) : StatusName := if last then .dataRxNack else .dataRxAck

/-- The pending action a control word makes, with the byte in `DATA` for CW_TX (R30, R92). -/
def actionOf (cw : ControlWord) (data : Byte) : Action :=
  match cw with
  | .start => .start
  | .rstart => .rstart
  | .tx => .tx data
  | .rxAck => .rxAck
  | .rxNack => .rxNack
  | .stop => .stop

/-- Whether an action receives a byte (R27, R106). -/
def Action.receives : Action → Bool
  | .rxAck => true
  | .rxNack => true
  | .start => false
  | .rstart => false
  | .tx _ => false
  | .stop => false

/-- The control word SEQ awaits in its present phase: its fixed program (R11(b), R14, R73). -/
def awaited (q : Seq) : Option ControlWord :=
  match q.ph with
  | .idle => none
  | .wStart => some .start
  | .wSlaw => some .tx
  | .wReg => some .tx
  | .wRstart => some .rstart
  | .wSlar => some .tx
  | .wData => some (rxword q.idx q.cnt)

/-- The value of a hex character, if it is one: '0' to '9', 'A' to 'F', 'a' to 'f' (R178). -/
def hexDigit (ch : Byte) : Option Nibble :=
  if 0x30 ≤ ch && ch ≤ 0x39 then some ((ch - 0x30).setWidth 4)
  else if 0x41 ≤ ch && ch ≤ 0x46 then some ((ch - 0x37).setWidth 4)
  else if 0x61 ≤ ch && ch ≤ 0x66 then some ((ch - 0x57).setWidth 4)
  else none

/-- `hexToInt`: the digit's value, -1 for any other character (R178). -/
def hexToInt (ch : Byte) : Int := (hexDigit ch).elim (-1) fun n => (n.toNat : Int)

/-- `intToHex` on its domain 0 to 15: '0' to '9', then 'A' to 'F' (R179, 90 C3). -/
def intToHex (n : Nibble) : Byte := if n ≤ 9 then 0x30 + n.toByte else 0x37 + n.toByte

/-- A byte as two hex digits, high nibble first (R179). -/
def byteHex (b : Byte) : List Byte := [intToHex (b.extractLsb' 4 4), intToHex (b.extractLsb' 0 4)]

/-- PRESUMED (91 N23: "printable" is not defined): the printable ASCII codes, space to tilde. -/
def printable (b : Byte) : Bool := 0x20 ≤ b && b ≤ 0x7E

end Sys2Proof.Machine
end

