-- ==== Sys2Proof/Machine/Ops.lean ====
section
/-! DEFINITION. The named operations over memory, registers and queues, the wait, the abort (AMIO's only exception) and the reset event, each written once (spec/40_bus_sequencer.md R92 to R104; spec/41_char_channel.md R130, R131; spec/60_exceptions.md R196; spec/70_reset_and_hazards.md R220 to R222). -/

namespace Sys2Proof.Machine

/-! ## Byte memory -/

/-- The value at an address; `none` where nothing is listed: that entry holds no value (R38). -/
def Memory.read : Memory → Nat → Option Byte
  | [], _ => none
  | (k, b) :: m, a => if k = a then some b else Memory.read m a

/-- Write one byte, keeping the addresses strictly rising. -/
def Memory.write : Memory → Nat → Byte → Memory
  | [], a, v => [(a, v)]
  | (k, b) :: m, a, v =>
    if a < k then (a, v) :: (k, b) :: m
    else if a = k then (a, v) :: m
    else (k, b) :: Memory.write m a v

/-- Every address of the memory is above `lo` and the addresses rise strictly. -/
def Memory.risingFrom : Nat → Memory → Bool
  | _, [] => true
  | lo, (k, _) :: m => decide (lo ≤ k) && Memory.risingFrom (k + 1) m

/-- The canonical form of `RBUF`: strictly rising addresses below `COUNT_MAX` (R16, R41(a)). An unlisted address holds no
value, so no listed value is redundant. -/
def Memory.wf (m : Memory) : Bool := Memory.risingFrom 0 m && m.all fun c => decide (c.1 < countMaxHere)

/-! ## Pokes and submits -/

/-- `Poke(DATA, b)` (R40). -/
def pokeData (b : Byte) (s : State) : State := { s with bus := { s.bus with data := b, dataPoked := true } }

/-- `Poke(TXN, CW_CODE(cw))` with the side effects of a submit: `DONE <- 0`, `PENDING <- cw` with the byte in `DATA` for
CW_TX, `POLLS <- 0`, and the event (R29, R30, R92). -/
def submit (cw : ControlWord) (s : State) : State :=
  { s with
    bus := { s.bus with
      txn := s.cfg.cwCode.code cw
      done := false
      pending := some (actionOf cw s.bus.data)
      dataPoked := false }
    seq.polls := 0
    evlog := s.evlog ++ [.submit (actionOf cw s.bus.data)] }

/-- `submit(CW_TX, b)`: `DATA` first, then `TXN` (R50, R92). -/
def submitTx (b : Byte) (s : State) : State := submit .tx (pokeData b s)

/-- `PH <- p` (R14). -/
def setPhase (p : Phase) (s : State) : State := { s with seq.ph := p }

/-! ## The end of a READREG -/

/-- `abort(reason)`, the block's only exception: `RES <- Err(reason); PH <- IDLE`, hence `res_valid <- 1`; nothing is
submitted and nothing else is written (R104, R196). There is no return from it (R197). -/
def abort (r : Reason) (s : State) : State :=
  { s with seq := { s.seq with res := .err r, ph := .idle }, port.resValid := true }

/-- The result of a READREG that went through: `RES <- Ok; PH <- IDLE` (R103). -/
def setOk (s : State) : State :=
  { s with seq := { s.seq with res := .ok, ph := .idle }, port.resValid := true }

/-- `finish()`: CW_STOP is submitted only when `STOP_EXPLICIT`, and is not waited for (R103). -/
def finish (s : State) : State := setOk (if s.cfg.stopExplicit then submit .stop s else s)

/-! ## The wait and the check -/

/-- A poll that found `DONE = 0` (R93): without a bound nothing changes; with the bound `L` the poll is counted and the
`L`-th aborts with Timeout. -/
def pollAgain (s : State) : State :=
  match s.cfg.timeoutPolls with
  | none => s
  | some l =>
    if s.seq.polls + 1 ≥ l then abort .timeout { s with seq.polls := s.seq.polls + 1 }
    else { s with seq.polls := s.seq.polls + 1 }

/-- `wait()`, one step: `DONE` is examined first (R93, R195(b)); `k` is the completion rule of the phase. -/
def awaitDone (k : State → Host.Outcome State Fault Refusal) (s : State) : Host.Outcome State Fault Refusal :=
  if s.bus.done then k s else .next (pollAgain s)

/-- `expect(st)`: equality of all 8 bits of `STATUS` with the expected code, else `abort(ProtocolError)` (R73, R90, R95). -/
def expect (st : StatusName) (k : State → Host.Outcome State Fault Refusal) (s : State) :
    Host.Outcome State Fault Refusal :=
  if s.bus.status = s.cfg.statusCode.code st then k s else .next (abort .protocolError s)

/-- `RBUF[IDX] <- Peek(DATA)` (R102). -/
def storeByte (s : State) : State :=
  { s with seq.rbuf := Memory.write s.seq.rbuf s.seq.idx.toNat s.bus.data }

/-- The success action of a data byte that is not the last: `IDX <- IDX + 1; submit(rxword(IDX))` (R102). -/
def nextByte (s : State) : State :=
  submit (rxword (s.seq.idx + 1) s.seq.cnt) { s with seq.idx := s.seq.idx + 1 }

/-- The success action of a data byte: the store, then `finish()` after the last byte, else the next receive (R102). A store
outside `RBUF` is a fault (R16). -/
def takeByte (last : Bool) (s : State) : Host.Outcome State Fault Refusal :=
  if s.seq.idx.toNat < s.cfg.countMax then
    .next (if last then finish (storeByte s) else nextByte (storeByte s))
  else .fault .rbufOutOfRange

/-! ## Acceptance and completion of a command -/

/-- A command of kind `k` is accepted: `res_valid <- 0`, and the next result will be its (R74). -/
def beginCommand (k : CommandKind) (s : State) : State :=
  { s with port := { s.port with resValid := false, rop := some k } }

/-- A command is complete: `res_valid <- 1` (R74). -/
def endCommand (s : State) : State := { s with port.resValid := true }

/-! ## The serial side -/

/-- `recv()` when `RXQ` is `b :: rest`: the head is removed and the event recorded (R130). -/
def popByte (b : Byte) (rest : List Byte) (s : State) : State :=
  { s with serial.rxq := rest, evlog := s.evlog ++ [.pop b] }

/-- `tx_push` with `TX_DATA = b` (R131). -/
def pushByte (b : Byte) (s : State) : State := { s with evlog := s.evlog ++ [.push b] }

/-- CCH starts to send `q` in phase `p` with `CB = b` (R133, R134). -/
def beginSend (p : CharPhase) (b : Byte) (q : List Byte) (s : State) : State :=
  { s with cch := { s.cch with cph := p, cb := b, cq := q } }

/-- The last byte of the phase has been pushed: an echo now sets `CRES`, both phases end (R133, R134). DESIGN CHOICE (log 8): the
field `cb`, which then holds no value (R38), keeps the last byte, and no operation reads it. -/
def endSend (s : State) : State :=
  endCommand { s with cch := { s.cch with
    cph := .idle
    cq := []
    cres := if s.cch.cph = .echo then some ⟨true, s.cch.cb⟩ else s.cch.cres } }

/-- CCH's step while it sends: `send(head(CQ))`; without room nothing changes (R131, R133, R134). -/
def sendStep (s : State) : State :=
  if s.cch.cph = .idle then s
  else match s.cch.cq with
    | [] => s
    | b :: rest =>
      if s.serial.txRoom then
        if rest = [] then endSend (pushByte b s)
        else { pushByte b s with cch.cq := rest }
      else s

/-! ## Free values and the receive buffer as the host reads it -/

/-- The state after one free value has been drawn; the value is `Config.freeByte s.freeIdx` (R7: `any`). -/
def drawn (s : State) : State := { s with freeIdx := s.freeIdx + 1 }

/-- `rbuf_data` for an index: the entry, where the host may use it; `none` where it holds no value (R16, R38). -/
def rbufAt (s : State) (i : Nat) : Option Byte :=
  if s.seq.res = .ok ∧ i < s.seq.cnt.toNat then Memory.read s.seq.rbuf i else none

/-- The output `rbuf_data` at the index on the port (R34). -/
def rbufData (s : State) : Option Byte := rbufAt s s.port.rbufIdx.toNat

/-- The bytes of `Ok(bytes)`: `[RBUF[0], ..., RBUF[CNT-1]]` (R16, R75). -/
def okBytes (s : State) : List Byte := (List.range s.seq.cnt.toNat).filterMap (rbufAt s)

/-! ## Reset -/

/-- The reset event: the block's own state takes the values of R221, a command in flight is dropped without a result, nothing
is poked or pushed, and BUSIF, SERIAL, LATCH, the host and the ghost log stay as they are (R220, R222). `RBUF` holds no value
afterwards and `CB` is a free value. -/
def resetBlock (s : State) : State :=
  { drawn s with
    seq := .reset
    cch := { Cch.reset with cb := Config.freeByte s.freeIdx }
    port.resValid := false
    port.rop := none }

end Sys2Proof.Machine
end

