-- ==== Sys2Proof/Machine/CharChannel.lean ====
section
/-! DEFINITION. The meanings of POLLCHAR, WRITECHAR and of the pseudo-operations WRITESTRING and WRITELINE (spec/41_char_channel.md R132 to R136). CCH's later steps are `sendStep`. -/

namespace Sys2Proof.Machine

/-- A POLLCHAR that finds no byte: `CRES <- {false, any}`, complete in this step (R133, R138). -/
def pollNothing (s : State) : State :=
  endCommand { drawn s with cch.cres := some ⟨false, Config.freeByte s.freeIdx⟩ }

/-- A POLLCHAR that takes the byte `b`: without echo it is complete in this step; with echo the byte and `ECHO_EOL` are to be
sent first (R133). -/
def pollByte (echo : Bool) (b : Byte) (rest : List Byte) (s : State) : State :=
  let s1 := popByte b rest s
  if echo then
    let s2 := beginSend .echo b (b :: s.cfg.echoEol) s1
    { s2 with cch.cres := none }
  else endCommand { s1 with cch := { s1.cch with cb := b, cres := some ⟨true, b⟩ } }

/-- POLLCHAR (R132, R133): `RX_AVAIL` is sampled once, at acceptance. While `BUSY = 1` the command is not accepted (R23). -/
def execPollchar (echo : Bool) (s : State) : Host.Outcome State Fault Refusal :=
  .next (if busy s then s
    else match s.serial.rxq with
      | [] => pollNothing (beginCommand .pollchar s)
      | b :: rest => pollByte echo b rest (beginCommand .pollchar s))

/-- WRITECHAR (R134): `CB <- b, CQ <- [b], CPH <- C_WRITE`. While `BUSY = 1` the command is not accepted (R23). -/
def execWritechar (byte : Byte) (s : State) : Host.Outcome State Fault Refusal :=
  .next (if busy s then s else beginSend .write byte [byte] (beginCommand .writechar s))

/-- The host's operations that a pseudo-operation stands for, one command each (R79). -/
def expansion (i : Instr) : List HostOp := (expand i).map .issue

/-- A pseudo-operation's expansion is put before what the host has still to do (R79). -/
def expandInto (i : Instr) (s : State) : State := { s with host.prog := expansion i ++ s.host.prog }

/-- WRITESTRING (R135): one WRITECHAR per byte, in order. -/
def execWritestring (text : List Byte) (s : State) : Host.Outcome State Fault Refusal :=
  .next (expandInto (.writestring text) s)

/-- WRITELINE (R136): WRITESTRING, then 0x0D and 0x0A. -/
def execWriteline (text : List Byte) (s : State) : Host.Outcome State Fault Refusal :=
  .next (expandInto (.writeline text) s)

end Sys2Proof.Machine
end

