-- ==== Sys2Proof/Machine/Sequencer.lean ====
section
/-! DEFINITION. The meanings of READREG and of the six control words (spec/40_bus_sequencer.md R90 to R104). A control word in
SEQ's hands is the spin-wait and the completion rule of the phase that awaits it; while SEQ is idle it is the write of TXN itself
(spec/10_state.md R26, R29, R30); in any other phase it is a poke outside the contract (R25, 93 U4). -/

namespace Sys2Proof.Machine

/-- The acceptance of a READREG (R94). -/
def acceptReadreg (sa ra count : Byte) (s : State) : State :=
  let s1 := beginCommand .readreg s
  setPhase .wStart (submit .start
    { s1 with seq := { s1.seq with sa := sa, ra := ra, cnt := count, res := .none, idx := 0 } })

/-- READREG (R90, R94). While `BUSY = 1` the command is not accepted (R23); `count = 0` is a reserved encoding, which changes
no state (R65). -/
def execReadreg (sa ra count : Byte) (s : State) : Host.Outcome State Fault Refusal :=
  .next (if busy s || !countOk count then s else acceptReadreg sa ra count s)

/-- `DATA` as a CW_TX that SEQ does not submit finds it: while `DONE = 0` and nothing was poked into it since the last submit it
holds no value, and a free value is drawn (R38, 93 U8). -/
def readyData (cw : ControlWord) (s : State) : State :=
  if cw = .tx ∧ s.bus.done = false ∧ s.bus.dataPoked = false then pokeData (Config.freeByte s.freeIdx) (drawn s) else s

/-- A control word executed where SEQ does not await it: a write of `TXN` while SEQ is idle (R26), otherwise a poke outside
the contract (R25). -/
def pokeWord (cw : ControlWord) (s : State) : Host.Outcome State Fault Refusal :=
  if s.seq.ph = .idle then .next (submit cw (readyData cw s)) else .refused .pokeWhileBusy

/-! ## The completion rules, one per phase -/

/-- Completion in `W_START` (R96). -/
def completeStart (s : State) : Host.Outcome State Fault Refusal :=
  expect .start (fun s => .next (setPhase .wSlaw (submitTx (addressByte s.seq.sa .write) s))) s

/-- Completion in `W_SLAW` (R97). -/
def completeSlaw (s : State) : Host.Outcome State Fault Refusal :=
  expect .slawAck (fun s => .next (setPhase .wReg (submitTx s.seq.ra s))) s

/-- Completion in `W_REG` (R98). -/
def completeReg (s : State) : Host.Outcome State Fault Refusal :=
  expect .dataTxAck (fun s => .next (setPhase .wRstart (submit .rstart s))) s

/-- The success action of `W_RSTART` (R99). -/
def afterRstart (s : State) : State := setPhase .wSlar (submitTx (addressByte s.seq.sa .read) s)

/-- Completion in `W_RSTART`: the status is looked at only with `VALIDATE_RSTART` (R99). -/
def completeRstart (s : State) : Host.Outcome State Fault Refusal :=
  if s.cfg.validateRstart then expect .rstart (fun s => .next (afterRstart s)) s else .next (afterRstart s)

/-- The success action of `W_SLAR`: `IDX <- 0; submit(rxword(0))` (R100, R101). -/
def afterSlar (s : State) : State :=
  setPhase .wData (submit (rxword 0 s.seq.cnt) { s with seq.idx := 0 })

/-- Completion in `W_SLAR` (R100). -/
def completeSlar (s : State) : Host.Outcome State Fault Refusal :=
  expect .slarAck (fun s => .next (afterSlar s)) s

/-- Completion in `W_DATA` (R102): the status is compared first, the byte is stored only on a match. -/
def completeData (last : Bool) (s : State) : Host.Outcome State Fault Refusal :=
  expect (rxExpected last) (takeByte last) s

/-! ## The meanings of the control words -/

/-- CW_START (R96). -/
def execCwStart (s : State) : Host.Outcome State Fault Refusal :=
  if awaited s.seq = some .start then awaitDone completeStart s else pokeWord .start s

/-- CW_RSTART (R99). -/
def execCwRstart (s : State) : Host.Outcome State Fault Refusal :=
  if awaited s.seq = some .rstart then awaitDone completeRstart s else pokeWord .rstart s

/-- CW_TX: the address byte with the write direction (R97), the register address (R98), the address byte with the read
direction (R100). -/
def execCwTx (s : State) : Host.Outcome State Fault Refusal :=
  match s.seq.ph with
  | .wSlaw => awaitDone completeSlaw s
  | .wReg => awaitDone completeReg s
  | .wSlar => awaitDone completeSlar s
  | .idle | .wStart | .wRstart | .wData => pokeWord .tx s

/-- CW_RX_ACK: a data byte that is not the last (R101, R102). -/
def execCwRxAck (s : State) : Host.Outcome State Fault Refusal :=
  if awaited s.seq = some .rxAck then awaitDone (completeData false) s else pokeWord .rxAck s

/-- CW_RX_NACK: the last data byte (R101, R102, R103). -/
def execCwRxNack (s : State) : Host.Outcome State Fault Refusal :=
  if awaited s.seq = some .rxNack then awaitDone (completeData true) s else pokeWord .rxNack s

/-- CW_STOP: submitted by `finish()` when `STOP_EXPLICIT`, never awaited (R103); here the write of `TXN` itself. -/
def execCwStop (s : State) : Host.Outcome State Fault Refusal := pokeWord .stop s

end Sys2Proof.Machine
end

