-- ==== Sys2Proof/Machine/Dispatch.lean ====
section
/-! DEFINITION. The meaning of every instruction: one arm per constructor of Instr. -/

namespace Sys2Proof.Machine

/-- What an instruction does (spec/30_encoding.md R80 names the rule of each). -/
def exec (i : Instr) (s : State) : Host.Outcome State Fault Refusal :=
  match i with
  | .readreg sa ra count => Sys2Proof.Machine.execReadreg sa ra count s
  | .pollchar echo => Sys2Proof.Machine.execPollchar echo s
  | .writechar byte => Sys2Proof.Machine.execWritechar byte s
  | .writestring text => Sys2Proof.Machine.execWritestring text s
  | .writeline text => Sys2Proof.Machine.execWriteline text s
  | .cwStart => Sys2Proof.Machine.execCwStart s
  | .cwRstart => Sys2Proof.Machine.execCwRstart s
  | .cwTx => Sys2Proof.Machine.execCwTx s
  | .cwRxAck => Sys2Proof.Machine.execCwRxAck s
  | .cwRxNack => Sys2Proof.Machine.execCwRxNack s
  | .cwStop => Sys2Proof.Machine.execCwStop s

end Sys2Proof.Machine
end

