-- ==== Sys2Proof/Machine/Environment.lean ====
section
/-! DEFINITION. The steps of the environment agents BUSIF, SERIAL and LATCH, and of the command port's inputs (spec/40_bus_sequencer.md R106; spec/41_char_channel.md R140; spec/10_state.md R25 to R34), and the wire events a BUSIF that does what it is asked makes (spec/20_memory.md R45). -/

namespace Sys2Proof.Machine

/-- The event of an action's completion (R37). -/
def completionEvent (a : Action) (status data : Byte) : Event :=
  if a.receives then .completeRx status data else .complete status

/-- BUSIF's completion step (R106): enabled when `PENDING != none`; otherwise nothing changes. `data` is the byte received;
after any other action it is the unspecified value `DATA` then has (R27, 93 U8). -/
def completeAction (status data : Byte) (s : State) : State :=
  match s.bus.pending with
  | none => s
  | some a =>
    { s with
      bus := { s.bus with status := status, data := data, pending := none, done := true }
      evlog := s.evlog ++ [completionEvent a status data] }

/-- BUSIF clears a pending CW_STOP without setting `DONE` (R30, R106). -/
def dropStop (s : State) : State :=
  if s.bus.pending = some .stop then { s with bus.pending := none } else s

/-- Whether `RXQ` has room for one more byte (R31, R140). -/
def rxqHasRoom (s : State) : Bool := s.cfg.rxqDepth.all fun d => decide (s.serial.rxq.length < d)

/-- A byte arrives (R140); with `RXQ` full it is lost without any indication (93 U7). -/
def arrive (b : Byte) (s : State) : State :=
  if rxqHasRoom s then { s with serial.rxq := s.serial.rxq ++ [b] } else s

/-- SERIAL sets `TX_ROOM` (R32, R140). -/
def setRoom (v : Bool) (s : State) : State := { s with serial.txRoom := v }

/-- A command word on the port, held there until it is accepted (R23, R34). -/
def presentCommand (w : CmdWord) (s : State) : State :=
  { s with port := { s.port with cmdValid := true, cmd := w } }

/-- The word leaves the command port. -/
def withdrawCommand (s : State) : State := { s with port.cmdValid := false }

/-- The port holds a command: its requester has no step until it is accepted (R23). A reserved word counts as no command
(R65). -/
def portHolds (s : State) : Bool := s.port.cmdValid && (decodeCommand s.port.cmd).isOk

/-- A requester presents a word where the port holds none. -/
def presentMove (w : CmdWord) (s : State) : State := if portHolds s then s else presentCommand w s

/-- A requester takes back a word that is no command; a command it cannot take back (R23). -/
def withdrawMove (s : State) : State := if portHolds s then s else withdrawCommand s

/-- The host drives `rbuf_idx` (R34). -/
def selectRbuf (i : Byte) (s : State) : State := { s with port.rbufIdx := i }

/-- A write of the output latch (R160). -/
def setLatch (v : Byte) (s : State) : State := { s with latch := v }

/-! ## Wire events -/

/-- The acknowledge bit of a byte on the bus (R45). -/
inductive Ack where
  | ack | nack
  deriving DecidableEq, Repr

/-- The wire events of R45. The acknowledge bit of a transmitted byte is the slave's answer: `none` where the status does not
tell it. -/
inductive WireEvent where
  | start | repeatedStart | stop
  | tx (b : Byte) (a : Option Ack)
  | rx (b : Byte) (a : Ack)
  deriving DecidableEq, Repr

/-- The status tells that the slave acknowledged a transmitted byte (R72: address+write acknowledged, data byte acknowledged,
address+read acknowledged). -/
def txAck (c : StatusCodes) (status : Byte) : Option Ack :=
  if status = c.slawAck ∨ status = c.dataTxAck ∨ status = c.slarAck then some .ack else none

/-- The wire events of one completed action (R45). DESIGN CHOICE (log 44): CW_START is always `S`, as R45 maps it, also on a bus
still held after an abort, where R233 calls it a repeated START. A received byte is answered as the control word says; the final NACK is
followed by STOP unless `STOP_EXPLICIT`. -/
def wireOfAction (c : Params) (a : Action) (status data : Byte) : List WireEvent :=
  match a with
  | .start => [.start]
  | .rstart => [.repeatedStart]
  | .tx b => [.tx b (txAck c.statusCode status)]
  | .rxAck => [.rx data .ack]
  | .rxNack => if c.stopExplicit then [.rx data .nack] else [.rx data .nack, .stop]
  | .stop => [.stop]

/-- The wire events of a log, from the submit that is still without an answer (R37, R45). DESIGN CHOICE (logs 33, 45): a submit is
on the wire at its completion, and one whose completion the log does not hold is not there; CW_STOP, which needs no completion
(R30), is on the wire at its submit. -/
def wireFrom (c : Params) : Option Action → List Event → List WireEvent
  | _, [] => []
  | _, .submit .stop :: log => .stop :: wireFrom c none log
  | _, .submit a :: log => wireFrom c (some a) log
  | some a, .complete st :: log => wireOfAction c a st 0 ++ wireFrom c none log
  | some a, .completeRx st d :: log => wireOfAction c a st d ++ wireFrom c none log
  | none, .complete _ :: log => wireFrom c none log
  | none, .completeRx _ _ :: log => wireFrom c none log
  | p, .pop _ :: log => wireFrom c p log
  | p, .push _ :: log => wireFrom c p log

/-- The wire events a healthy BUSIF makes of a log (R45). -/
def wireOf (c : Params) (log : List Event) : List WireEvent := wireFrom c none log

end Sys2Proof.Machine
end

