-- ==== Sys2Proof/Machine/HostMenu.lean ====
section
/-! DEFINITION. The host software around the block: the tick scheduler and the menu state machine (spec/45_host_software.md R155, R157, R160 to R178; spec/90_conflicts.md C3 to C6). -/

namespace Sys2Proof.Machine

/-! ## The tick scheduler -/

/-- One tick of the scheduler's own variables and the latch, steps 1 and 2 (R161, R162). DESIGN CHOICE (log 43): one step. -/
def schedulerTick (s : State) : State :=
  if s.latch ≠ s.host.lastSeen then
    { s with host := { s.host with lastSeen := s.latch, nextPattern := ~~~s.latch, elapsed := 0 } }
  else if s.host.elapsed + 1 = 1000 then
    { s with
      latch := s.host.nextPattern
      host := { s.host with
        lastSeen := if s.cfg.ownWriteSeen then s.host.nextPattern else s.host.lastSeen
        nextPattern := ~~~s.host.nextPattern
        elapsed := 0 } }
  else { s with host.elapsed := s.host.elapsed + 1 }

/-! ## What the host has to do -/

/-- Operations put before those the host has still to do. -/
def hostCall (ops : List HostOp) (s : State) : State := { s with host.prog := ops ++ s.host.prog }

/-- Print lines of menu text, each ended by CR and LF (R136, R180). -/
def say (ls : List (List Byte)) (s : State) : State := hostCall (ls.map fun l => .issue (.writeline l)) s

/-- An invocation of the menu has not returned yet: the host has operations left, or waits for its last command. There is one
thread of control, so no other command of the host falls between (R23, R135, R155, R208). -/
def menuActive (s : State) : Bool := !s.host.prog.isEmpty || s.host.awaiting

/-! ## Menu text -/

/-- "Unknown option " and the byte in quotes (R170, 90 C4). -/
def unknownOption (quote b : Byte) : List Byte :=
  [0x55, 0x6E, 0x6B, 0x6E, 0x6F, 0x77, 0x6E, 0x20, 0x6F, 0x70, 0x74, 0x69, 0x6F, 0x6E, 0x20, quote, b, quote]

/-- "Toggled LED on" (R172). -/
def toggledOn : List Byte := [0x54, 0x6F, 0x67, 0x67, 0x6C, 0x65, 0x64, 0x20, 0x4C, 0x45, 0x44, 0x20, 0x6F, 0x6E]

/-- "Toggled LED off" (R172). -/
def toggledOff : List Byte :=
  [0x54, 0x6F, 0x67, 0x67, 0x6C, 0x65, 0x64, 0x20, 0x4C, 0x45, 0x44, 0x20, 0x6F, 0x66, 0x66]

/-- "Invalid input" (R174). -/
def invalidInput : List Byte := [0x49, 0x6E, 0x76, 0x61, 0x6C, 0x69, 0x64, 0x20, 0x69, 0x6E, 0x70, 0x75, 0x74]

/-- The current addresses in two-hex-digit form (R173). -/
def addressLine (a : BusAddress) : List Byte :=
  Config.addressText 0 ++ byteHex a.slaveAddress ++ Config.addressText 1 ++ byteHex a.registerAddress
    ++ Config.addressText 2

/-- The static text of a screen (R170 to R174). DESIGN CHOICE (log 23): but for BUS_MENU's address line it is the same at every
printing. DEDUCED from 90 C6 (log 22): the address line stands only on the first entry, before any input. -/
def screenText (fresh : Bool) (m : MenuContext) : List (List Byte) :=
  match m.currentState with
  | .uninitialized => (List.finRange 9).map Config.mainLine
  | .main => (List.finRange 9).map Config.mainLine
  | .secondary => Config.secondaryLines
  | .ledToggle => Config.ledLines
  | .busMenu => if fresh then addressLine m.addr :: Config.busLines else Config.busLines
  | .busSetSlave => Config.setSlaveLines
  | .busSetRegister => Config.setRegisterLines
  | .exit => []

/-! ## Invocation -/

/-- UNINITIALIZED is treated identically to MAIN and only observed before the first invocation (R151). -/
def settleState : MenuState → MenuState
  | .uninitialized => .main
  | .main => .main
  | .secondary => .secondary
  | .ledToggle => .ledToggle
  | .busMenu => .busMenu
  | .busSetSlave => .busSetSlave
  | .busSetRegister => .busSetRegister
  | .exit => .exit

/-- One invocation of the menu (R155, R163): skipped when the "still running" flag is cleared, and while the invocation before
it has not returned (log 19). It polls first. -/
def menuInvoke (s : State) : State :=
  if s.host.running && !menuActive s then
    let s1 := hostCall [.issue (.pollchar s.cfg.menuEcho), .dispatch] s
    { s1 with host.menu.currentState := settleState s.host.menu.currentState }
  else s

/-- The tick callback (R161 to R163). DESIGN CHOICE (log 43): its own reads and writes and the start of the invocation are one
step, in which no other agent writes the latch. A tick is held off while `MASK_REQ = 1` on a platform that connects it (R24, R194), and
is late or lost while the callback before it has not returned (R238); both are steps that change nothing. -/
def tickCallback (s : State) : State :=
  if (s.cfg.maskConnected && maskReq s) || (s.cfg.menuFromTick && menuActive s) then s
  else if s.cfg.menuFromTick then menuInvoke (schedulerTick s)
  else schedulerTick s

/-- The main loop's invocation, in the variant in which it and not the tick calls the menu (R165). -/
def mainLoopCall (s : State) : State := if s.cfg.menuFromTick then s else menuInvoke s

/-! ## Transitions -/

/-- The next poll prints the screen again (R177). -/
def reprint (s : State) : State := { s with host.menu.screenPrinted := false }

/-- A transition to a menu state clears the printed flag (R177). -/
def enter (m : MenuState) (s : State) : State :=
  { s with host.menu.currentState := m, host.menu.screenPrinted := false, host.freshEntry := true }

/-- The digit entry back to zero (R150, R174). -/
def clearEntry (s : State) : State := { s with host.menu.entry := ⟨false, 0⟩ }

/-- An unrecognised key: the message, no change of the menu state, and the screen is printed again (R170, R181, 90 C5). What a
byte that is not printable does is not stated (93 U16). -/
def unknownKey (b : Byte) (s : State) : Host.Outcome State Fault Refusal :=
  if printable b then .next (reprint (say [unknownOption s.cfg.quoteChar b] s)) else .refused .nonPrintableByte

/-- EXIT: the farewell line once, and the "still running" flag cleared (R175). -/
def enterExit (s : State) : State := { say [Config.farewell] (enter .exit s) with host.running := false }

/-- The number of bytes of the sensor read behind `p` (91 N11). -/
def sensorCount : Byte := BitVec.ofNat 8 (Config.sensorCountLess1.val + 1)

/-- Keys of MAIN (R170): a, b, c, l, p, r, q. -/
def mainKey (b : Byte) (s : State) : Host.Outcome State Fault Refusal :=
  if b = 0x61 then .next (say [Config.mainMessage] s)
  else if b = 0x62 then .next (enter .secondary s)
  else if b = 0x63 then .next (enter .main s)
  else if b = 0x6C then .next (enter .ledToggle s)
  else if b = 0x70 then
    .next (hostCall [.issue (.readreg Config.sensorSlave Config.sensorRegister sensorCount), .showSensor] s)
  else if b = 0x72 then .next (enter .busMenu s)
  else if b = 0x71 then .next (enterExit s)
  else unknownKey b s

/-- Keys of SECONDARY (R171): a, q. -/
def secondaryKey (b : Byte) (s : State) : Host.Outcome State Fault Refusal :=
  if b = 0x61 then .next (reprint s)
  else if b = 0x71 then .next (enter .main s)
  else unknownKey b s

/-- The LED on: latch all-ones (R172). -/
def ledOn (s : State) : State := say [toggledOn] (setLatch 0xFF s)

/-- The LED off: latch zero (R172). -/
def ledOff (s : State) : State := say [toggledOff] (setLatch 0x00 s)

/-- Keys of LED_TOGGLE (R172): a, b, c, q. DESIGN CHOICE (log 43): the test and the write of the latch are one step. -/
def ledKey (b : Byte) (s : State) : Host.Outcome State Fault Refusal :=
  if b = 0x61 then .next (if s.latch ≠ 0 then ledOff s else ledOn s)
  else if b = 0x62 then .next (ledOn s)
  else if b = 0x63 then .next (ledOff s)
  else if b = 0x71 then .next (enter .main s)
  else unknownKey b s

/-- Keys of BUS_MENU (R173): s, d, r, q. -/
def busKey (b : Byte) (s : State) : Host.Outcome State Fault Refusal :=
  if b = 0x73 then .next (enter .busSetSlave s)
  else if b = 0x64 then .next (enter .busSetRegister s)
  else if b = 0x72 then
    .next (hostCall [.issue (.readreg s.host.menu.addr.slaveAddress s.host.menu.addr.registerAddress 1), .showRead] s)
  else if b = 0x71 then .next (enter .main s)
  else unknownKey b s

/-- The address pair with the field the entry state selects replaced (R174). -/
def setTarget (m : MenuState) (v : Byte) (a : BusAddress) : BusAddress :=
  if m = .busSetSlave then { a with slaveAddress := v } else { a with registerAddress := v }

/-- A hex digit in the two-nibble entry (R174). -/
def entryDigit (n : Nibble) (s : State) : State :=
  if s.host.menu.entry.haveFirstNibble then
    let v := s.host.menu.entry.accumulatedValue ||| n.toByte
    enter .busMenu (clearEntry { s with host.menu.addr := setTarget s.host.menu.currentState v s.host.menu.addr })
  else { s with host.menu.entry := ⟨true, n.toByte <<< 4⟩ }

/-- Keys of BUS_SET_SLAVE and BUS_SET_REGISTER (R174): q, a hex digit, anything else. -/
def entryKey (b : Byte) (s : State) : State :=
  if b = 0x71 then enter .busMenu (clearEntry s)
  else match hexDigit b with
    | none => clearEntry (say [invalidInput] s)
    | some n => entryDigit n s

/-- One input byte in the current menu state (R170 to R175). In EXIT nothing is polled any more (R175). -/
def menuKey (b : Byte) (s : State) : Host.Outcome State Fault Refusal :=
  match s.host.menu.currentState with
  | .uninitialized => mainKey b s
  | .main => mainKey b s
  | .secondary => secondaryKey b s
  | .ledToggle => ledKey b s
  | .busMenu => busKey b s
  | .busSetSlave => .next (entryKey b s)
  | .busSetRegister => .next (entryKey b s)
  | .exit => .next s

/-! ## Going on with a result -/

/-- The static text as operations, unless it has been emitted since the screen was entered (R150, R177). -/
def screenOps (s : State) : List HostOp :=
  if s.host.menu.screenPrinted then []
  else (screenText s.host.freshEntry s.host.menu).map (fun l => .issue (.writeline l)) ++ [.printed]

/-- What the menu does with its poll's result: without a byte nothing (R155, R181). DESIGN CHOICE (log 42): where `rst` has dropped
the poll and `CRES` is none, it counts as no byte. -/
def keyOps (r : Option CharResult) : List HostOp :=
  match r with
  | some r => if r.success then [.key r.value] else []
  | none => []

/-- The menu looks at its poll's result: the text of the screen if it is due, then the key (R155, R177). DESIGN CHOICE (log 20):
the text stands before what the key does, so that every screen entered is printed. -/
def menuDispatch (s : State) : State := hostCall (screenOps s ++ keyOps s.cch.cres) s

/-- The static text of the screen has been emitted (R150). -/
def markPrinted (s : State) : State := { s with host.menu.screenPrinted := true }

/-- `n` free values, drawn one after the other. -/
def freeBytes (n : Nat) (s : State) : List Byte := (List.range n).map fun k => Config.freeByte (s.freeIdx + k)

/-- The menu prints a READREG's result through a format (R157): the bytes on `Ok`; on `Err` the visible message, or, in the
original source, the format of `n` bytes that hold no value (DESIGN CHOICE, log 24, for the sensor's format). DESIGN CHOICE (log
42): where `rst` has dropped the READREG and `RES` is none, nothing is printed. -/
def showResult (fmt : List Byte → List Byte) (n : Nat) (s : State) : State :=
  match s.seq.res with
  | .ok => say [fmt (okBytes s)] s
  | .err _ =>
    if s.cfg.surfaceErr then say [Config.errMessage] s
    else { say [fmt (freeBytes n s)] s with freeIdx := s.freeIdx + n }
  | .none => s

/-- The host goes on at a point of the menu (R155, R157, R173). -/
def menuResume (op : HostOp) (s : State) : Host.Outcome State Fault Refusal :=
  match op with
  | .issue _ => .next s
  | .dispatch => .next (menuDispatch s)
  | .printed => .next (markPrinted s)
  | .key b => menuKey b { s with host.freshEntry := false }
  | .showRead => .next (showResult (fun bs => bs.flatMap byteHex) 1 s)
  | .showSensor => .next (showResult Config.sensorText sensorCount.toNat s)

end Sys2Proof.Machine
end

