-- ==== Sys2Proof/Machine/Agents.lean ====
section
/-! DEFINITION. What each agent's move does, instruction fetch among it: the command port's acceptance, SEQ's fixed program, the host's stack of operations, a poke by another agent (spec/00_scope.md R8; spec/10_state.md R11, R23, R25; spec/30_encoding.md R64, R65). -/

namespace Sys2Proof.Machine

/-- The step of the command port: a command is taken where `cmd_valid = 1` and `cmd_ready = 1` (R34), off the port, and
executed; while `BUSY = 1` it is not accepted (R23), and a reserved word changes nothing and stays on the port (R65). -/
def acceptMove (s : State) : Host.Outcome State Fault Refusal :=
  if s.port.cmdValid && cmdReady s then
    match decodeCommand s.port.cmd with
    | .ok i => exec i (withdrawCommand s)
    | .error _ => .next s
  else .next s

/-- SEQ's step: the control word its phase awaits, none while it is idle (R11(b), R14). -/
def seqMove (s : State) : Host.Outcome State Fault Refusal :=
  match awaited s.seq with
  | some cw => exec cw.instr s
  | none => .next s

/-- A write of `TXN` by another agent: outside the contract while `PH != IDLE` (R25, 93 U4), otherwise the control word is
executed (R26); a reserved one is not given a meaning (R71, 93 U6). -/
def pokeTxnMove (w : Byte) (s : State) : Host.Outcome State Fault Refusal :=
  if s.seq.ph = .idle then
    match decodeControl s.cfg.cwCode w with
    | .ok cw => exec cw.instr s
    | .error _ => .refused .reservedControlWord
  else .refused .pokeWhileBusy

/-- A write of `DATA` by another agent (R25, R27). DESIGN CHOICE (log 4): while SEQ is idle it happens, although R35 and R40 name
SEQ and BUSIF only as writers, and the byte stays for a later CW_TX. -/
def pokeDataMove (b : Byte) (s : State) : Host.Outcome State Fault Refusal :=
  if s.seq.ph = .idle then .next (pokeData b s) else .refused .pokeWhileBusy

/-- The host begins an operation: a command goes onto the port (R34), a pseudo-operation is expanded (R79), and a control word
is executed as a write of `TXN`. -/
def hostIssue (i : Instr) (s : State) : Host.Outcome State Fault Refusal :=
  match commandWord i with
  | some w => .next (presentCommand w { s with host.awaiting := true })
  | none => exec i s

/-- The host has the result of its command and goes on with these operations left. -/
def hostGoesOn (rest : List HostOp) (s : State) : State :=
  { s with host := { s.host with prog := rest, awaiting := false } }

/-- The host waits: a word is on the command port, the block is busy, or the result of the host's own command is not there
(R23, R155, R200). DESIGN CHOICE (log 42): after `rst` has dropped its command the host goes on waiting for a result. -/
def hostWaits (s : State) : Bool := s.port.cmdValid || busy s || (s.host.awaiting && !s.port.resValid)

/-- The host's next operation; with none left its call returns. -/
def hostMove (s : State) : Host.Outcome State Fault Refusal :=
  if hostWaits s then .next s
  else match s.host.prog with
    | [] => .next (hostGoesOn [] s)
    | .issue i :: rest => hostIssue i (hostGoesOn rest s)
    | op :: rest => menuResume op (hostGoesOn rest s)

/-- One move of one agent. A move whose agent has no enabled step changes nothing. -/
def runMove (m : Move) (s : State) : Host.Outcome State Fault Refusal :=
  match m with
  | .rst => .next (resetBlock s)
  | .accept => acceptMove s
  | .seq => seqMove s
  | .cch => .next (sendStep s)
  | .host => hostMove s
  | .present w => .next (presentMove w s)
  | .withdraw => .next (withdrawMove s)
  | .selectRbuf i => .next (selectRbuf i s)
  | .complete status data => .next (completeAction status data s)
  | .dropStop => .next (dropStop s)
  | .arrive b => .next (arrive b s)
  | .room => .next (setRoom true s)
  | .full => .next (setRoom false s)
  | .tick => .next (tickCallback s)
  | .mainLoop => .next (mainLoopCall s)
  | .latch v => .next (setLatch v s)
  | .pokeTxn w => pokeTxnMove w s
  | .pokeData b => pokeDataMove b s

/-- The next move, and the state with it taken off: the script's first, or, after the script's end, the oracle's (R8,
R11(c)). -/
def nextMove (s : State) : Move × State :=
  match s.script with
  | m :: rest => (m, { s with script := rest })
  | [] => (Config.oracle s.freeIdx, { s with freeIdx := s.freeIdx + 1 })

/-- One step of the whole device. -/
def stepOnce (s : State) : Host.Outcome State Fault Refusal := runMove (nextMove s).1 (nextMove s).2

/-- The state with a word where the next step fetches: a command word on the command port with the acceptance next, a control
word as the next write of `TXN`. Nothing else is a length of the table (R64, R70). -/
def placeWord (s : State) (nbits w : Nat) : State :=
  if nbits = 32 then { presentCommand (BitVec.ofNat 32 w) s with script := .accept :: s.script }
  else if nbits = 8 then { s with script := .pokeTxn (BitVec.ofNat 8 w) :: s.script }
  else s

end Sys2Proof.Machine
end

