-- ==== Sys2Proof/Machine/Step.lean ====
section
/-! DEFINITION. The step of the machine and the placing of an instruction's word for the next step. -/

namespace Sys2Proof.Machine

/-- One step: one move of one agent (spec/00_scope.md R8). -/
def step (s : State) : Host.Outcome State Fault Refusal := stepOnce s

/-- `s` with the table's word placed where the next step fetches its instruction. -/
def State.withFetchWord (s : State) (nbits w : Nat) : State := placeWord s nbits w

end Sys2Proof.Machine
end

