-- ==== Sys2Proof/Safety.lean ====
section
/-! DEFINITION. What counts as a safe state, and READREG as a function of a script (spec/10_state.md; spec/40_bus_sequencer.md R105, R108, R110): the terms the statements use. -/

namespace Sys2Proof.Machine

/-! ## The invariant -/

/-- The action SEQ's present phase waits for, with the byte it transmits (R73, R97, R98, R100, R101). -/
def inFlight (q : Seq) : Option Action :=
  match q.ph with
  | .idle => none
  | .wStart => some .start
  | .wSlaw => some (.tx (addressByte q.sa .write))
  | .wReg => some (.tx q.ra)
  | .wRstart => some .rstart
  | .wSlar => some (.tx (addressByte q.sa .read))
  | .wData => some (actionOf (rxword q.idx q.cnt) 0)

/-- The entries below `n` of the receive buffer hold a value. -/
def filledBelow (m : Memory) (n : Nat) : Prop := ∀ i < n, (Memory.read m i).isSome

/-- While SEQ waits: a positive count, no result yet, and either the awaited action is pending with `DONE = 0`, or it has
completed with `DONE = 1` and nothing is pending (R17, R29, R30, R94, R107(c)). -/
structure SeqWaiting (s : State) : Prop where
  count : s.seq.cnt ≠ 0
  noResult : s.seq.res = .none
  notValid : s.port.resValid = false
  handshake : (s.bus.done = false ∧ s.bus.pending = inFlight s.seq) ∨ (s.bus.done = true ∧ s.bus.pending = none)
  polls : ∀ l ∈ s.cfg.timeoutPolls, s.seq.polls < l

/-- What CCH still has to send is an end of what its phase sends (R133, R134). -/
def queueOk (s : State) : Prop :=
  match s.cch.cph with
  | .idle => s.cch.cq = []
  | .echo => s.cch.cq ≠ [] ∧ s.cch.cq <:+ s.cch.cb :: s.cfg.echoEol ∧ s.port.resValid = false
  | .write => s.cch.cq = [s.cch.cb] ∧ s.port.resValid = false

/-- The digit entry of the menu: built only in the two entry states, its low nibble still open (R150, R174). -/
structure EntryOk (m : MenuContext) : Prop where
  state : m.entry.haveFirstNibble = true → m.currentState = .busSetSlave ∨ m.currentState = .busSetRegister
  low : m.entry.accumulatedValue.extractLsb' 0 4 = 0
  zero : m.entry.haveFirstNibble = false → m.entry.accumulatedValue = 0

/-- The invariant of the device. -/
structure State.Inv (s : State) : Prop where
  /-- The parameters are as R6 requires. -/
  params : s.cfg.wf = true
  /-- The receive buffer keeps its canonical form (R16). -/
  rbuf : Memory.wf s.seq.rbuf = true
  /-- SEQ and CCH are never active together (R23, R195(e)). -/
  exclusive : s.seq.ph = .idle ∨ s.cch.cph = .idle
  /-- SEQ waits properly. -/
  waiting : s.seq.ph ≠ .idle → SeqWaiting s
  /-- `IDX` stays below `CNT` and counts the bytes stored (R15). -/
  index : s.seq.ph = .wData → s.seq.idx < s.seq.cnt ∧ filledBelow s.seq.rbuf s.seq.idx.toNat
  /-- After `Ok` the entries below `CNT` hold the bytes read (R16). -/
  result : s.seq.res = .ok → filledBelow s.seq.rbuf s.seq.cnt.toNat
  /-- CCH's queue. -/
  queue : queueOk s
  /-- `RXQ` keeps to its capacity (R31). -/
  rxq : ∀ d ∈ s.cfg.rxqDepth, s.serial.rxq.length ≤ d
  /-- The menu's digit entry. -/
  entry : EntryOk s.host.menu
  /-- EXIT has cleared the "still running" flag (R175). -/
  stopped : s.host.menu.currentState = .exit → s.host.running = false

/-! ## The phase table -/

/-- The rows of R108's table, but for what completes them: which phase may follow which in one step. -/
def phaseMayFollow : Phase → Phase → Bool
  | .idle, p => p == .idle || p == .wStart
  | .wStart, p => p == .wStart || p == .wSlaw || p == .idle
  | .wSlaw, p => p == .wSlaw || p == .wReg || p == .idle
  | .wReg, p => p == .wReg || p == .wRstart || p == .idle
  | .wRstart, p => p == .wRstart || p == .wSlar || p == .idle
  | .wSlar, p => p == .wSlar || p == .wData || p == .idle
  | .wData, p => p == .wData || p == .idle

/-! ## READREG as a function of a script -/

/-- How a scripted READREG ends (R105). -/
inductive ScriptResult where
  | hang | ok (bytes : List Byte) | err (r : Reason)
  deriving DecidableEq, Repr

/-- The submits of a READREG in order, with the status each is checked against (R73, R105). -/
def readSequence (c : Params) (sa ra : Byte) (n : Nat) : List (Action × Option StatusName) :=
  [(.start, some .start), (.tx (addressByte sa .write), some .slawAck), (.tx ra, some .dataTxAck),
    (.rstart, if c.validateRstart then some .rstart else none), (.tx (addressByte sa .read), some .slarAck)]
  ++ List.replicate (n - 1) (.rxAck, some .dataRxAck) ++ [(.rxNack, some .dataRxNack)]

/-- A check of a status against an expected code; no check where none is expected (R105: NOCHECK). -/
def passes (c : Params) (e : Option StatusName) (status : Byte) : Bool :=
  e.all fun st => status == c.statusCode.code st

/-- How a submit ends that is never answered: a hang, or a timeout under a bound (R105). -/
def unanswered (c : Params) : ScriptResult := if c.timeoutPolls.isSome then .err .timeout else .hang

/-- The events of a submit and its answer. -/
def exchange (w : Action × Option StatusName) (answer : Byte × Byte) : List Event :=
  [.submit w.1, completionEvent w.1 answer.1 answer.2]

/-- R105's loop over the submits still to come and the answers still to come, with the bytes received so far: the result and
the events. Answers that run out count as `never`. -/
def runSequence (c : Params) : List (Action × Option StatusName) → List (Byte × Byte) → List Byte →
    ScriptResult × List Event
  | [], _, buf => (.ok buf, if c.stopExplicit then [.submit .stop] else [])
  | (a, _) :: _, [], _ => (unanswered c, [.submit a])
  | (a, e) :: ws, (status, data) :: answers, buf =>
    if passes c e status then
      let r := runSequence c ws answers (if a.receives then buf ++ [data] else buf)
      (r.1, .submit a :: completionEvent a status data :: r.2)
    else (.err .protocolError, [.submit a, completionEvent a status data])

/-- READREG as a function of its operands and a script (R105). -/
def runReadreg (c : Params) (sa ra : Byte) (n : Nat) (answers : List (Byte × Byte)) : ScriptResult × List Event :=
  runSequence c (readSequence c sa ra n) answers []

/-- The moves of a scripted bus: BUSIF gives an answer, SEQ looks at it, and so on (R105). -/
def scriptMoves (answers : List (Byte × Byte)) : List Move :=
  answers.flatMap fun a => [.complete a.1 a.2, .seq]

/-- The polls that find `DONE = 0` after the last answer: as many as the bound, none without one (R93, R105). -/
def timeoutMoves (c : Params) : List Move := List.replicate (c.timeoutPolls.getD 0) .seq

/-- What the machine shows when a scripted READREG has ended as `r` (R17, R75, R104, R200). -/
def shows (r : ScriptResult) (t : State) : Prop :=
  match r with
  | .hang => t.seq.ph ≠ .idle ∧ t.seq.res = .none ∧ t.port.resValid = false
  | .ok bytes => t.seq.ph = .idle ∧ t.seq.res = .ok ∧ okBytes t = bytes ∧ t.port.resValid = true
  | .err e => t.seq.ph = .idle ∧ t.seq.res = .err e ∧ t.port.resValid = true

/-- The status SEQ checks in its present phase, if it checks one (R73). -/
def expectedStatus (c : Params) (q : Seq) : Option StatusName :=
  match q.ph with
  | .idle => none
  | .wStart => some .start
  | .wSlaw => some .slawAck
  | .wReg => some .dataTxAck
  | .wRstart => if c.validateRstart then some .rstart else none
  | .wSlar => some .slarAck
  | .wData => some (rxExpected (isLast q.idx q.cnt))

/-- SEQ's awaited action has completed and its check, if there is one, passes (R95). -/
def completesWell (s : State) : Prop := s.bus.done = true ∧ passes s.cfg (expectedStatus s.cfg s.seq) s.bus.status = true

/-- SEQ's awaited action has completed and its check fails (R95). -/
def completesBadly (s : State) : Prop := s.bus.done = true ∧ passes s.cfg (expectedStatus s.cfg s.seq) s.bus.status = false

/-- The moves that take one WRITECHAR of the host through: the host presents it, the port accepts it, CCH pushes it (R134). -/
def writeMoves : List Move := [.host, .accept, .cch]

end Sys2Proof.Machine
end

