-- ==== Sys2Proof/Certificates/Slice0/Obligations.lean ====
section
/-! DEFINITION. The statements for the provers, each a formalisation of the rules of spec/ it names. -/

open Sys2Proof Sys2Proof.Machine

/-! ## Encodings -/

/-- R61, R62, R63, R70: the examples and codes the rules give decode to what they stand for. -/
def Obligations.SpecWordsDecode : Prop :=
  decodeTableWord 32 0x10016811 = some (.readreg 0x68 0x11 1) ∧
  decodeTableWord 32 0x20000000 = some (.pollchar false) ∧
  decodeTableWord 32 0x20000001 = some (.pollchar true) ∧
  decodeTableWord 32 0x30000041 = some (.writechar 0x41) ∧
  decodeTableWord 8 0 = some .cwStart ∧
  decodeTableWord 8 1 = some .cwRstart ∧
  decodeTableWord 8 2 = some .cwTx ∧
  decodeTableWord 8 3 = some .cwRxAck ∧
  decodeTableWord 8 4 = some .cwRxNack ∧
  decodeTableWord 8 5 = some .cwStop

/-- R60 to R64, R70, R79: decoding the words of a well-formed instruction gives the instruction back (a pseudo-operation: its
expansion), for every injective map of control-word codes. -/
def Obligations.EncodeThenDecodeGivesInstruction : Prop :=
  ∀ (c : CwCodes) (i : Instr), c.values.Nodup → i.wf = true →
    (encode c i).map (decode c) = (expand i).map Except.ok

/-- R61 to R65: the decoder accepts exactly the words of well-formed commands. -/
def Obligations.DecodeCommandAcceptsExactlyEncodings : Prop :=
  ∀ (w : CmdWord) (i : Instr), decodeCommand w = .ok i ↔ i.wf = true ∧ commandWord i = some w

/-- R70, R71: under an injective map a control word is read back from its code and from no other byte. -/
def Obligations.DecodeControlAcceptsExactlyCodes : Prop :=
  ∀ (c : CwCodes) (b : Byte) (cw : ControlWord), c.values.Nodup →
    (decodeControl c b = .ok cw ↔ c.code cw = b)

/-- R65: which command words are reserved, and that a presented reserved word is not accepted and changes no state. -/
def Obligations.ReservedWordRefusedWithoutEffect : Prop :=
  (∀ w : CmdWord, (∃ e, decodeCommand w = .error e) ↔
    (w.extractLsb' 24 4 ≠ 0 ∨
      w.extractLsb' 28 4 = 0 ∨ 4 ≤ w.extractLsb' 28 4 ∨
      (w.extractLsb' 28 4 = 1 ∧ w.extractLsb' 16 8 = 0) ∨
      (w.extractLsb' 28 4 = 2 ∧ w.extractLsb' 1 23 ≠ 0) ∨
      (w.extractLsb' 28 4 = 3 ∧ w.extractLsb' 8 16 ≠ 0))) ∧
  (∀ (s : State) (e : Reserved), decodeCommand s.port.cmd = .error e → acceptMove s = .next s)

/-! ## Operands -/

/-- R66, R107(a): the address byte as a number and bit by bit; bit 7 of `SA` is lost. -/
def Obligations.AddressByteDropsTopBit : Prop :=
  ∀ (sa : Byte) (d : Direction),
    (addressByte sa .write).toNat = 2 * sa.toNat % 256 ∧
    (addressByte sa .read).toNat = (2 * sa.toNat + 1) % 256 ∧
    (addressByte sa d).extractLsb' 1 7 = sa.extractLsb' 0 7

/-- R101, R107(c): NACK for the last byte, ACK for every other. -/
def Obligations.ReceiveWordNacksOnlyLastByte : Prop :=
  ∀ i cnt : Byte, i < cnt → rxword i cnt = if i.toNat + 1 = cnt.toNat then .rxNack else .rxAck

/-- R178, R179: `hexToInt` on every byte, `intToHex` on its domain, that they are inverse to each other, and that a byte is two
digits, the high nibble first. -/
def Obligations.HexHelpersAgree : Prop :=
  (∀ ch : Byte, hexToInt ch =
    if 0x30 ≤ ch.toNat ∧ ch.toNat ≤ 0x39 then (ch.toNat : Int) - 0x30
    else if 0x41 ≤ ch.toNat ∧ ch.toNat ≤ 0x46 then (ch.toNat : Int) - 0x41 + 10
    else if 0x61 ≤ ch.toNat ∧ ch.toNat ≤ 0x66 then (ch.toNat : Int) - 0x61 + 10
    else -1) ∧
  (∀ n : Nibble, (intToHex n).toNat = if n.toNat ≤ 9 then 0x30 + n.toNat else 0x41 + (n.toNat - 10)) ∧
  (∀ n : Nibble, hexToInt (intToHex n) = n.toNat) ∧
  (∀ hi lo : Nibble, byteHex (hi ++ lo) = [intToHex hi, intToHex lo])

/-! ## Primitives -/

/-- R92: what a submit of each control word does, and that a transmit writes `DATA` first. Of the model's own mark `dataPoked`
(log 39) nothing is said. -/
def Obligations.SubmitEffects : Prop :=
  (∀ (s : State) (cw : ControlWord), ∃ poked, submit cw s =
    { s with
      seq := { s.seq with polls := 0 }
      bus := { s.bus with
        txn := s.cfg.cwCode.code cw, done := false, pending := some (actionOf cw s.bus.data), dataPoked := poked }
      evlog := s.evlog ++ [.submit (actionOf cw s.bus.data)] }) ∧
  (∀ (s : State) (b : Byte), ∃ poked, submitTx b s =
    { s with
      seq := { s.seq with polls := 0 }
      bus := { s.bus with
        txn := s.cfg.cwCode.tx, data := b, done := false, pending := some (.tx b), dataPoked := poked }
      evlog := s.evlog ++ [.submit (.tx b)] })

/-- R93, R200: without a bound, a wait that finds `DONE = 0` changes nothing, in every waiting phase. -/
def Obligations.UnboundedWaitChangesNothing : Prop :=
  ∀ s : State, s.seq.ph ≠ .idle → s.bus.done = false → s.cfg.timeoutPolls = none → seqMove s = .next s

/-- R93, R190: with the bound `L`, a wait that finds `DONE = 0` counts the poll and aborts with Timeout at the `L`-th. -/
def Obligations.BoundedWaitCountsThenTimesOut : Prop :=
  ∀ (s : State) (l : Nat), s.seq.ph ≠ .idle → s.bus.done = false → s.cfg.timeoutPolls = some l →
    seqMove s = .next
      (if s.seq.polls + 1 < l then { s with seq := { s.seq with polls := s.seq.polls + 1 } }
        else { s with
          seq := { s.seq with polls := s.seq.polls + 1, res := .err .timeout, ph := .idle }
          port := { s.port with resValid := true } })

/-- R104: what an abort writes, and that nothing is submitted. -/
def Obligations.AbortWritesResultAndPhaseOnly : Prop :=
  ∀ (s : State) (r : Reason),
    abort r s =
      { s with seq := { s.seq with res := .err r, ph := .idle }, port := { s.port with resValid := true } } ∧
    submits (abort r s).evlog = submits s.evlog

/-- R196, R77: what the host sees of an abort: not busy, no mask request, the result word with the reason, and at the read port
of `RBUF` no value, whichever entry it selects (R16, R38; log 9). -/
def Obligations.AbortShowsErrorResult : Prop :=
  ∀ (s : State) (r : Reason), s.cch.cph = .idle → s.port.rop = some .readreg →
    busy (abort r s) = false ∧ maskReq (abort r s) = false ∧
    resWord (abort r s) = some (0x1#4 ++ 0b00#2 ++ (if r = .timeout then 0b10#2 else 0b01#2) ++ 0x00#8) ∧
    ∀ i, rbufData (selectRbuf i (abort r s)) = none

/-- R74 to R77: the result word of each command while `res_valid = 1`, and none while `res_valid = 0`. R16, R34, R75: the read
port of `RBUF` gives the entry it selects after `Ok` below `CNT`; from `CNT` on, with any other result and after `rst` it holds
no value (R38, 93 U3; log 9). -/
def Obligations.ResultWordFormat : Prop :=
  ∀ s : State,
    (s.port.resValid = false → resWord s = none) ∧
    (s.port.resValid = true → s.port.rop = some .readreg → s.seq.res = .ok →
      resWord s = some (0x1#4 ++ 0b00#2 ++ 0b00#2 ++ s.seq.cnt)) ∧
    (∀ r, s.port.resValid = true → s.port.rop = some .readreg → s.seq.res = .err r →
      resWord s = some (0x1#4 ++ 0b00#2 ++ (if r = .timeout then 0b10#2 else 0b01#2) ++ 0x00#8)) ∧
    (s.port.resValid = true → s.port.rop = some .pollchar → ∀ r, s.cch.cres = some r →
      resWord s = some (0x2#4 ++ 0b00#2 ++ (if r.success then 0b01#2 else 0b00#2) ++ r.value)) ∧
    (s.port.resValid = true → s.port.rop = some .writechar → resWord s = some 0x3000#16) ∧
    (s.seq.res = .ok → s.port.rbufIdx.toNat < s.seq.cnt.toNat →
      rbufData s = Memory.read s.seq.rbuf s.port.rbufIdx.toNat) ∧
    (s.seq.cnt.toNat ≤ s.port.rbufIdx.toNat → rbufData s = none) ∧
    (s.seq.res ≠ .ok → rbufData s = none) ∧
    rbufData (resetBlock s) = none

/-! ## READREG and the control words

In the equations `dataPoked` is the model's own mark (log 39): every submit clears it. -/

/-- R94: the acceptance of a READREG, and nothing else changes. -/
def Obligations.ReadregAcceptance : Prop :=
  ∀ (s : State) (sa ra count : Byte), busy s = false → count ≠ 0 →
    exec (.readreg sa ra count) s = .next
      { s with
        seq := { s.seq with
          sa := sa, ra := ra, cnt := count, ph := .wStart, idx := 0, res := .none, polls := 0 }
        port := { s.port with resValid := false, rop := some .readreg }
        bus := { s.bus with txn := s.cfg.cwCode.start, done := false, pending := some .start, dataPoked := false }
        evlog := s.evlog ++ [.submit .start] }

/-- R23: while `BUSY = 1`, `cmd_ready` is 0 and a command has no effect on any state. -/
def Obligations.BusyBlockIgnoresCommands : Prop :=
  ∀ s : State, busy s = true →
    cmdReady s = false ∧ acceptMove s = .next s ∧
    (∀ sa ra count, exec (.readreg sa ra count) s = .next s) ∧
    (∀ echo, exec (.pollchar echo) s = .next s) ∧
    (∀ b, exec (.writechar b) s = .next s)

/-- R96: CW_START's completion, matched and mismatched. -/
def Obligations.StartCompletes : Prop :=
  ∀ s : State, s.seq.ph = .wStart → s.bus.done = true →
    (s.bus.status = s.cfg.statusCode.start → exec .cwStart s = .next
      { s with
        seq := { s.seq with ph := .wSlaw, polls := 0 }
        bus := { s.bus with
          txn := s.cfg.cwCode.tx, data := addressByte s.seq.sa .write, done := false
          pending := some (.tx (addressByte s.seq.sa .write)), dataPoked := false }
        evlog := s.evlog ++ [.submit (.tx (addressByte s.seq.sa .write))] }) ∧
    (s.bus.status ≠ s.cfg.statusCode.start → exec .cwStart s = .next (abort .protocolError s))

/-- R97: CW_TX of the address byte with the write direction, matched and mismatched. -/
def Obligations.WriteAddressCompletes : Prop :=
  ∀ s : State, s.seq.ph = .wSlaw → s.bus.done = true →
    (s.bus.status = s.cfg.statusCode.slawAck → exec .cwTx s = .next
      { s with
        seq := { s.seq with ph := .wReg, polls := 0 }
        bus := { s.bus with
          txn := s.cfg.cwCode.tx, data := s.seq.ra, done := false, pending := some (.tx s.seq.ra)
          dataPoked := false }
        evlog := s.evlog ++ [.submit (.tx s.seq.ra)] }) ∧
    (s.bus.status ≠ s.cfg.statusCode.slawAck → exec .cwTx s = .next (abort .protocolError s))

/-- R98: CW_TX of the register address, matched and mismatched. -/
def Obligations.RegisterAddressCompletes : Prop :=
  ∀ s : State, s.seq.ph = .wReg → s.bus.done = true →
    (s.bus.status = s.cfg.statusCode.dataTxAck → exec .cwTx s = .next
      { s with
        seq := { s.seq with ph := .wRstart, polls := 0 }
        bus := { s.bus with
          txn := s.cfg.cwCode.rstart, done := false, pending := some .rstart, dataPoked := false }
        evlog := s.evlog ++ [.submit .rstart] }) ∧
    (s.bus.status ≠ s.cfg.statusCode.dataTxAck → exec .cwTx s = .next (abort .protocolError s))

/-- R99: CW_RSTART's completion: unvalidated it goes on whatever `STATUS` holds; validated it checks. -/
def Obligations.RepeatedStartCompletes : Prop :=
  ∀ s : State, s.seq.ph = .wRstart → s.bus.done = true →
    (s.cfg.validateRstart = false ∨ s.bus.status = s.cfg.statusCode.rstart → exec .cwRstart s = .next
      { s with
        seq := { s.seq with ph := .wSlar, polls := 0 }
        bus := { s.bus with
          txn := s.cfg.cwCode.tx, data := addressByte s.seq.sa .read, done := false
          pending := some (.tx (addressByte s.seq.sa .read)), dataPoked := false }
        evlog := s.evlog ++ [.submit (.tx (addressByte s.seq.sa .read))] }) ∧
    (s.cfg.validateRstart = true → s.bus.status ≠ s.cfg.statusCode.rstart →
      exec .cwRstart s = .next (abort .protocolError s))

/-- R100, R101: CW_TX of the address byte with the read direction: the first receive is asked for, with NACK if it is the
only one. -/
def Obligations.ReadAddressCompletes : Prop :=
  ∀ s : State, s.seq.ph = .wSlar → s.bus.done = true →
    (s.bus.status = s.cfg.statusCode.slarAck → s.seq.cnt = 1 → exec .cwTx s = .next
      { s with
        seq := { s.seq with ph := .wData, idx := 0, polls := 0 }
        bus := { s.bus with
          txn := s.cfg.cwCode.rxNack, done := false, pending := some .rxNack, dataPoked := false }
        evlog := s.evlog ++ [.submit .rxNack] }) ∧
    (s.bus.status = s.cfg.statusCode.slarAck → s.seq.cnt ≠ 1 → exec .cwTx s = .next
      { s with
        seq := { s.seq with ph := .wData, idx := 0, polls := 0 }
        bus := { s.bus with
          txn := s.cfg.cwCode.rxAck, done := false, pending := some .rxAck, dataPoked := false }
        evlog := s.evlog ++ [.submit .rxAck] }) ∧
    (s.bus.status ≠ s.cfg.statusCode.slarAck → exec .cwTx s = .next (abort .protocolError s))

/-- R102: a data byte that is not the last, its index inside `RBUF` (R16): stored on a match only, then the next receive is
asked for. -/
def Obligations.DataByteCompletes : Prop :=
  ∀ s : State, s.seq.ph = .wData → s.bus.done = true → s.seq.idx.toNat + 1 < s.seq.cnt.toNat →
    s.seq.idx.toNat < s.cfg.countMax →
    (s.bus.status = s.cfg.statusCode.dataRxAck → exec .cwRxAck s = .next
      { s with
        seq := { s.seq with
          rbuf := Memory.write s.seq.rbuf s.seq.idx.toNat s.bus.data, idx := s.seq.idx + 1, polls := 0 }
        bus := { s.bus with
          txn := s.cfg.cwCode.code (rxword (s.seq.idx + 1) s.seq.cnt), done := false
          pending := some (actionOf (rxword (s.seq.idx + 1) s.seq.cnt) s.bus.data), dataPoked := false }
        evlog := s.evlog ++ [.submit (actionOf (rxword (s.seq.idx + 1) s.seq.cnt) s.bus.data)] }) ∧
    (s.bus.status ≠ s.cfg.statusCode.dataRxAck → exec .cwRxAck s = .next (abort .protocolError s))

/-- R102, R103: the last data byte, its index inside `RBUF` (R16): stored on a match only, then the transaction ends with `Ok`;
CW_STOP is submitted exactly when `STOP_EXPLICIT`. -/
def Obligations.LastDataByteFinishes : Prop :=
  ∀ s : State, s.seq.ph = .wData → s.bus.done = true → s.seq.idx.toNat + 1 = s.seq.cnt.toNat →
    s.seq.idx.toNat < s.cfg.countMax →
    (s.bus.status = s.cfg.statusCode.dataRxNack → s.cfg.stopExplicit = false → exec .cwRxNack s = .next
      { s with
        seq := { s.seq with
          rbuf := Memory.write s.seq.rbuf s.seq.idx.toNat s.bus.data, res := .ok, ph := .idle }
        port := { s.port with resValid := true } }) ∧
    (s.bus.status = s.cfg.statusCode.dataRxNack → s.cfg.stopExplicit = true → exec .cwRxNack s = .next
      { s with
        seq := { s.seq with
          rbuf := Memory.write s.seq.rbuf s.seq.idx.toNat s.bus.data, res := .ok, ph := .idle, polls := 0 }
        port := { s.port with resValid := true }
        bus := { s.bus with
          txn := s.cfg.cwCode.stop, done := false, pending := some .stop, dataPoked := false }
        evlog := s.evlog ++ [.submit .stop] }) ∧
    (s.bus.status ≠ s.cfg.statusCode.dataRxNack → exec .cwRxNack s = .next (abort .protocolError s))

/-- R26, R29, R30: while SEQ is idle, each control word is a write of `TXN` (log 4). CW_TX transmits the byte in `DATA`; while
`DONE = 0` and nothing was poked into `DATA` since the last submit that is a free value (R38; log 39). -/
def Obligations.IdleControlWordIsSubmit : Prop :=
  ∀ s : State, s.seq.ph = .idle →
    (∀ cw, cw ≠ .tx ∨ s.bus.done = true ∨ s.bus.dataPoked = true → exec cw.instr s = .next
      { s with
        seq := { s.seq with polls := 0 }
        bus := { s.bus with
          txn := s.cfg.cwCode.code cw, done := false, pending := some (actionOf cw s.bus.data), dataPoked := false }
        evlog := s.evlog ++ [.submit (actionOf cw s.bus.data)] }) ∧
    (s.bus.done = false → s.bus.dataPoked = false → exec .cwTx s = .next
      { s with
        seq := { s.seq with polls := 0 }
        bus := { s.bus with
          txn := s.cfg.cwCode.tx, data := Config.freeByte s.freeIdx, done := false
          pending := some (.tx (Config.freeByte s.freeIdx)), dataPoked := false }
        evlog := s.evlog ++ [.submit (.tx (Config.freeByte s.freeIdx))]
        freeIdx := s.freeIdx + 1 })

/-- R25 (93 U4): while SEQ waits, a write of `TXN` or `DATA` by another agent and a control word SEQ does not await are outside
the contract (log 4); CW_STOP is never awaited. -/
def Obligations.ForeignControlWordRefused : Prop :=
  ∀ (s : State) (cw : ControlWord), s.seq.ph ≠ .idle →
    (awaited s.seq ≠ some cw → exec cw.instr s = .refused .pokeWhileBusy) ∧ awaited s.seq ≠ some .stop ∧
    (∀ w, runMove (.pokeTxn w) s = .refused .pokeWhileBusy) ∧ (∀ b, runMove (.pokeData b) s = .refused .pokeWhileBusy)

/-- R90 to R104, R196: what a control word leaves unchanged: every latch of the operands, CCH, SERIAL, LATCH, the host, the
ports' inputs, `STATUS`, and every entry of `RBUF` but the one at `IDX`, which only a receive word writes. -/
def Obligations.ControlWordFrame : Prop :=
  ∀ (s t : State) (cw : ControlWord), exec cw.instr s = .next t →
    t.cfg = s.cfg ∧ t.cch = s.cch ∧ t.serial = s.serial ∧ t.latch = s.latch ∧ t.host = s.host ∧
    t.script = s.script ∧ (cw ≠ .tx ∨ s.seq.ph ≠ .idle → t.freeIdx = s.freeIdx) ∧
    t.seq.sa = s.seq.sa ∧ t.seq.ra = s.seq.ra ∧ t.seq.cnt = s.seq.cnt ∧
    t.port = { s.port with resValid := t.port.resValid } ∧ t.bus.status = s.bus.status ∧
    (∀ a, a ≠ s.seq.idx.toNat → Memory.read t.seq.rbuf a = Memory.read s.seq.rbuf a) ∧
    (cw ≠ .rxAck → cw ≠ .rxNack → t.seq.rbuf = s.seq.rbuf)

/-- R94, R130 to R134: what a host command leaves unchanged: READREG everything of CCH and SERIAL and every byte of `RBUF`;
POLLCHAR and WRITECHAR everything of SEQ and BUSIF; all of them the latch, the host and the ports' inputs. -/
def Obligations.HostCommandFrame : Prop :=
  ∀ s t : State,
    (∀ sa ra count, exec (.readreg sa ra count) s = .next t →
      t.cfg = s.cfg ∧ t.cch = s.cch ∧ t.serial = s.serial ∧ t.latch = s.latch ∧ t.host = s.host ∧
      t.script = s.script ∧ t.freeIdx = s.freeIdx ∧ t.seq.rbuf = s.seq.rbuf ∧
      t.bus.data = s.bus.data ∧ t.bus.status = s.bus.status ∧
      t.port.cmdValid = s.port.cmdValid ∧ t.port.cmd = s.port.cmd ∧ t.port.rbufIdx = s.port.rbufIdx) ∧
    (∀ i, (∃ echo, i = .pollchar echo) ∨ (∃ b, i = .writechar b) → exec i s = .next t →
      t.cfg = s.cfg ∧ t.seq = s.seq ∧ t.bus = s.bus ∧ t.latch = s.latch ∧ t.host = s.host ∧
      t.script = s.script ∧ t.serial.txRoom = s.serial.txRoom ∧ txlog t = txlog s ∧
      t.port.cmdValid = s.port.cmdValid ∧ t.port.cmd = s.port.cmd ∧ t.port.rbufIdx = s.port.rbufIdx) ∧
    (∀ b, exec (.writechar b) s = .next t → t.serial = s.serial ∧ t.evlog = s.evlog ∧ t.freeIdx = s.freeIdx)

/-! ## POLLCHAR, WRITECHAR and the pseudo-operations -/

/-- R132, R133, R138: a POLLCHAR that finds no byte completes in this step and changes nothing but its own result; the value is
free. -/
def Obligations.PollcharWithoutByte : Prop :=
  ∀ (s : State) (echo : Bool), busy s = false → s.serial.rxq = [] →
    exec (.pollchar echo) s = .next
      { s with
        cch := { s.cch with cres := some ⟨false, Config.freeByte s.freeIdx⟩ }
        port := { s.port with resValid := true, rop := some .pollchar }
        freeIdx := s.freeIdx + 1 }

/-- R132, R133: a POLLCHAR without echo takes exactly the oldest byte and completes in this step. -/
def Obligations.PollcharTakesOldestByte : Prop :=
  ∀ (s : State) (b : Byte) (rest : List Byte), busy s = false → s.serial.rxq = b :: rest →
    exec (.pollchar false) s = .next
      { s with
        cch := { s.cch with cb := b, cres := some ⟨true, b⟩ }
        serial := { s.serial with rxq := rest }
        port := { s.port with resValid := true, rop := some .pollchar }
        evlog := s.evlog ++ [.pop b] }

/-- R133: a POLLCHAR with echo takes the oldest byte and has the byte and `ECHO_EOL` to send before its result. -/
def Obligations.PollcharWithEchoStartsSending : Prop :=
  ∀ (s : State) (b : Byte) (rest : List Byte), busy s = false → s.serial.rxq = b :: rest →
    exec (.pollchar true) s = .next
      { s with
        cch := { cph := .echo, cb := b, cq := b :: s.cfg.echoEol, cres := none }
        serial := { s.serial with rxq := rest }
        port := { s.port with resValid := false, rop := some .pollchar }
        evlog := s.evlog ++ [.pop b] }

/-- R134: the acceptance of a WRITECHAR. -/
def Obligations.WritecharAcceptance : Prop :=
  ∀ (s : State) (b : Byte), busy s = false →
    exec (.writechar b) s = .next
      { s with
        cch := { s.cch with cph := .write, cb := b, cq := [b] }
        port := { s.port with resValid := false, rop := some .writechar } }

/-- R131, R133, R134: CCH's step while it sends: it waits without room; with room it pushes the head, and after the last byte
the command is complete. That `CB`, which then holds no value (R38), keeps its byte is the model's choice (log 8). -/
def Obligations.SendStepWaitsOrPushes : Prop :=
  ∀ (s : State) (b : Byte) (rest : List Byte), s.cch.cph ≠ .idle → s.cch.cq = b :: rest →
    (s.serial.txRoom = false → runMove .cch s = .next s) ∧
    (s.serial.txRoom = true → rest ≠ [] → runMove .cch s = .next
      { s with cch := { s.cch with cq := rest }, evlog := s.evlog ++ [.push b] }) ∧
    (s.serial.txRoom = true → rest = [] → s.cch.cph = .echo → runMove .cch s = .next
      { s with
        cch := { s.cch with cph := .idle, cq := [], cres := some ⟨true, s.cch.cb⟩ }
        port := { s.port with resValid := true }
        evlog := s.evlog ++ [.push b] }) ∧
    (s.serial.txRoom = true → rest = [] → s.cch.cph = .write → runMove .cch s = .next
      { s with
        cch := { s.cch with cph := .idle, cq := [] }
        port := { s.port with resValid := true }
        evlog := s.evlog ++ [.push b] })

/-- R79, R135, R136: the pseudo-operations have no command word and become WRITECHARs of the host, in order, before what it has
still to do. -/
def Obligations.PseudoOperationsExpand : Prop :=
  ∀ (s : State) (text : List Byte),
    exec (.writestring text) s = .next
      { s with host := { s.host with prog := text.map (fun b => .issue (.writechar b)) ++ s.host.prog } } ∧
    exec (.writeline text) s = .next
      { s with host := { s.host with
        prog := text.map (fun b => .issue (.writechar b)) ++
          [.issue (.writechar 0x0D), .issue (.writechar 0x0A)] ++ s.host.prog } } ∧
    commandWord (.writestring text) = none ∧ commandWord (.writeline text) = none

/-! ## The step -/

/-- R11(b), R23, R34, R64: a step runs the instruction its agent fetches: the command on the port, taken off it (log 10), and the
control word SEQ awaits. The model's choices: a control word poked while SEQ is idle (log 4), and a pseudo-operation or control
word among the host's operations (log 41). -/
def Obligations.StepRunsFetchedInstruction : Prop :=
  ∀ (s : State) (rest : List Move),
    (∀ i, s.script = .accept :: rest → s.port.cmdValid = true → busy s = false →
      decodeCommand s.port.cmd = .ok i →
      step s = exec i { s with script := rest, port := { s.port with cmdValid := false } }) ∧
    (∀ w cw, s.script = .pokeTxn w :: rest → s.seq.ph = .idle → decodeControl s.cfg.cwCode w = .ok cw →
      step s = exec cw.instr { s with script := rest }) ∧
    (∀ cw, s.script = .seq :: rest → awaited s.seq = some cw → step s = exec cw.instr { s with script := rest }) ∧
    (∀ i prog, s.script = .host :: rest → hostWaits s = false →
      s.host.prog = .issue i :: prog → commandWord i = none →
      step s = exec i { s with script := rest, host := { s.host with prog := prog, awaiting := false } })

/-- R34, R64, R70: a table word placed for the fetch is the instruction the very next step runs. -/
def Obligations.PlacedWordRunsNext : Prop :=
  ∀ (s : State) (w : Nat) (i : Instr),
    (decodeTableWord 32 w = some i → busy s = false →
      step (s.withFetchWord 32 w) =
        exec i { s with port := { s.port with cmdValid := false, cmd := BitVec.ofNat 32 w } }) ∧
    (decodeTableWord 8 w = some i → s.seq.ph = .idle → s.cfg.cwCode = .default →
      step (s.withFetchWord 8 w) = exec i s)

/-- R106: BUSIF's completion step, for a receive, for another action, and with nothing pending, and its other way to end a
CW_STOP. After an action that is not a
receive, `DATA` is unspecified (R27, 93 U8): the model's oracle gives it a value (log 39). -/
def Obligations.BusifCompletion : Prop :=
  ∀ (s : State) (status data : Byte),
    (s.bus.pending = none → runMove (.complete status data) s = .next s) ∧
    (∀ a, s.bus.pending = some a → a = .rxAck ∨ a = .rxNack → runMove (.complete status data) s = .next
      { s with
        bus := { s.bus with status := status, data := data, pending := none, done := true }
        evlog := s.evlog ++ [.completeRx status data] }) ∧
    (∀ a, s.bus.pending = some a → a ≠ .rxAck → a ≠ .rxNack → runMove (.complete status data) s = .next
      { s with
        bus := { s.bus with status := status, data := data, pending := none, done := true }
        evlog := s.evlog ++ [.complete status] }) ∧
    (s.bus.pending = some .stop → runMove .dropStop s = .next { s with bus := { s.bus with pending := none } }) ∧
    (s.bus.pending ≠ some .stop → runMove .dropStop s = .next s)

/-! ## Reset -/

/-- R220, R221, R222: the reset event, whatever the block was doing: the block's own state, and that BUSIF and SERIAL stay; and
the host's menu context at process start. That the ghost log, LATCH and the running host stay is the model's choice (log 18). -/
def Obligations.ResetEventValues : Prop :=
  (∀ s : State, ∃ t, runMove .rst s = .next t ∧
    t.seq.ph = .idle ∧ t.seq.idx = 0 ∧ t.seq.sa = 0 ∧ t.seq.ra = 0 ∧ t.seq.cnt = 0 ∧ t.seq.res = .none ∧ t.seq.polls = 0 ∧
    t.cch.cph = .idle ∧ t.cch.cq = [] ∧ t.cch.cres = none ∧
    busy t = false ∧ maskReq t = false ∧ t.port.resValid = false ∧ cmdReady t = true ∧
    t.bus = s.bus ∧ t.serial = s.serial ∧ t.latch = s.latch ∧ t.evlog = s.evlog ∧ txlog t = txlog s ∧ t.host = s.host) ∧
  State.reset.host.menu.currentState = .uninitialized ∧ State.reset.host.menu.entry = ⟨false, 0⟩

/-- R39: the values the spec gives for reset, in the state the model starts from. -/
def Obligations.ResetStateValues : Prop :=
  State.reset.seq.ph = .idle ∧ State.reset.seq.idx = 0 ∧ State.reset.seq.sa = 0 ∧ State.reset.seq.ra = 0 ∧
  State.reset.seq.cnt = 0 ∧ State.reset.seq.res = .none ∧ State.reset.seq.polls = 0 ∧
  State.reset.cch.cph = .idle ∧ State.reset.cch.cq = [] ∧ State.reset.cch.cres = none ∧
  busy State.reset = false ∧ maskReq State.reset = false ∧ cmdReady State.reset = true ∧
  State.reset.port.resValid = false ∧
  State.reset.host.menu.currentState = .uninitialized ∧ State.reset.host.menu.entry = ⟨false, 0⟩

/-! ## Invariants and whole-machine rules -/

/-- The invariant holds at reset. -/
def Obligations.ResetSatisfiesInvariant : Prop := State.Inv State.reset

/-- R15 to R19, R23, R29 to R31, R107, R174: every step of every agent keeps the invariant. -/
def Obligations.StepKeepsInvariant : Prop := ∀ s t : State, State.Inv s → step s = .next t → State.Inv t

/-- R15, R16, R107(b): under the invariant no step stores outside `RBUF`: the machine never faults. -/
def Obligations.InvariantExcludesFaults : Prop := ∀ (s : State) (f : Fault), State.Inv s → step s ≠ .fault f

/-- R108, R94, R95: `PH` moves only along the table: into the transaction only by the acceptance of a READREG, whose operands
are then latched; to the next phase, and from one data byte to the next, only on a completion whose check passes; out of it with
`Ok` only after the last byte's completion, its check passed, with ProtocolError only on a completion whose check fails, with
Timeout only under a bound, or by reset. -/
def Obligations.PhaseMovesAlongTable : Prop :=
  ∀ s t : State, step s = .next t →
    phaseMayFollow s.seq.ph t.seq.ph = true ∧
    (s.seq.ph = .idle → t.seq.ph ≠ .idle → s.port.cmdValid = true ∧ busy s = false ∧
      decodeCommand s.port.cmd = .ok (.readreg t.seq.sa t.seq.ra t.seq.cnt)) ∧
    (s.seq.ph ≠ .idle → t.seq.ph ≠ .idle → t.seq.ph ≠ s.seq.ph ∨ t.seq.idx ≠ s.seq.idx → completesWell s) ∧
    (s.seq.ph ≠ .idle → t.seq.ph = .idle →
      (s.seq.ph = .wData ∧ isLast s.seq.idx s.seq.cnt = true ∧ completesWell s ∧ t.seq.res = .ok) ∨
      (completesBadly s ∧ t.seq.res = .err .protocolError) ∨
      (s.bus.done = false ∧ s.cfg.timeoutPolls.isSome = true ∧ t.seq.res = .err .timeout) ∨
      t.seq = .reset)

/-- R37, R50: a step records at most one event, after all events before it, and no step takes one away. -/
def Obligations.EventLogGrowsByAtMostOne : Prop :=
  ∀ s t : State, step s = .next t → t.evlog = s.evlog ∨ ∃ e, t.evlog = s.evlog ++ [e]

/-- R139, R140: the bytes taken by POLLCHARs followed by the bytes still queued only ever grow at the end: bytes are delivered
in arrival order and none twice. -/
def Obligations.InputDeliveredInArrivalOrder : Prop :=
  ∀ s t : State, step s = .next t →
    t.evlog.filterMap Event.popped? ++ t.serial.rxq = s.evlog.filterMap Event.popped? ++ s.serial.rxq ∨
    ∃ b, t.evlog.filterMap Event.popped? ++ t.serial.rxq = s.evlog.filterMap Event.popped? ++ s.serial.rxq ++ [b]

/-- R11(a): the configuration is fixed for a run. -/
def Obligations.ConfigurationNeverChanges : Prop := ∀ s t : State, step s = .next t → t.cfg = s.cfg

/-- R12, R33: AMIO neither reads nor writes LATCH: its moves go the same way whatever the latch holds, and leave it. -/
def Obligations.BlockIgnoresLatch : Prop :=
  ∀ (s t : State) (m : Move) (v : Byte), m = .accept ∨ m = .seq ∨ m = .cch ∨ m = .rst →
    runMove m s = .next t → runMove m { s with latch := v } = .next { t with latch := v }

/-- R38 (93 U8), R93: while `DONE = 0`, what SEQ does does not depend on `STATUS` and `DATA`. -/
def Obligations.StatusAndDataUnreadBeforeDone : Prop :=
  ∀ s t : State, s.seq.ph ≠ .idle → s.bus.done = false → seqMove s = .next t →
    ∀ status data : Byte,
      seqMove { s with bus := { s.bus with status := status, data := data } } =
        .next { t with bus := { t.bus with status := status, data := data } }

/-! ## Whole operations -/

/-- R90, R94 to R105: from a READREG on the command port of an idle block, the machine under a script of bus answers shows the
result and records the events that R105's function gives; the script has at most one answer for each submit, and under a bound
the answers are followed by as many polls. -/
def Obligations.ReadregRefinesScriptFunction : Prop :=
  ∀ (s : State) (sa ra count : Byte) (answers : List (Byte × Byte)) (rest : List Move),
    s.cfg.wf = true → busy s = false → s.port.cmdValid = true → s.port.cmd = encodeReadreg sa ra count → count ≠ 0 →
    answers.length ≤ 5 + count.toNat →
    s.script = .accept :: (scriptMoves answers ++ timeoutMoves s.cfg ++ rest) →
    ∃ t, core.run (1 + 2 * answers.length + s.cfg.timeoutPolls.getD 0) s = .next t ∧
      shows (runReadreg s.cfg sa ra count.toNat answers).1 t ∧
      t.evlog = s.evlog ++ (runReadreg s.cfg sa ra count.toNat answers).2 ∧ t.script = rest

/-- R105, R110: the events of a scripted READREG. On `Ok`: `count` bytes, all submits in order, one completion between a submit and
the next, then the CW_STOP exactly when `STOP_EXPLICIT`. On ProtocolError: the exchanges up to the first whose status is another
than the expected one, which is the last event. On Timeout, only under a bound: the exchanges of all answers, which all passed, and
one submit more without a completion. On either `Err` the submits are a non-empty prefix without the CW_STOP. -/
def Obligations.ScriptedReadregTrace : Prop :=
  ∀ (c : Params) (sa ra : Byte) (n : Nat) (answers : List (Byte × Byte)) (r : ScriptResult) (log : List Event), 1 ≤ n →
    runReadreg c sa ra n answers = (r, log) →
    (∀ bytes, r = .ok bytes →
      bytes.length = n ∧
      log = (List.zipWith exchange (readSequence c sa ra n) answers).flatten
        ++ (if c.stopExplicit then [.submit .stop] else []) ∧
      submits log =
        [.start, .tx (addressByte sa .write), .tx ra, .rstart, .tx (addressByte sa .read)]
          ++ List.replicate (n - 1) .rxAck ++ [.rxNack] ++ (if c.stopExplicit then [.stop] else [])) ∧
    (r = .err .protocolError → ∃ done w status data,
      done ++ [w] <+: readSequence c sa ra n ∧
      log = (List.zipWith exchange done answers).flatten ++ [.submit w.1, completionEvent w.1 status data] ∧
      answers[done.length]? = some (status, data) ∧ passes c w.2 status = false ∧
      ∀ p ∈ done.zip answers, passes c p.1.2 p.2.1 = true) ∧
    (r = .err .timeout → c.timeoutPolls.isSome = true ∧ ∃ done w,
      done ++ [w] <+: readSequence c sa ra n ∧ done.length = answers.length ∧
      log = (List.zipWith exchange done answers).flatten ++ [.submit w.1] ∧
      ∀ p ∈ done.zip answers, passes c p.1.2 p.2.1 = true) ∧
    (∀ e, r = .err e → submits log ≠ [] ∧
      submits log <+:
        [.start, .tx (addressByte sa .write), .tx ra, .rstart, .tx (addressByte sa .read)]
          ++ List.replicate (n - 1) .rxAck ++ [.rxNack])

/-- R45, R110: the wire events of a READREG that a healthy BUSIF answers with `count` bytes `bytes ++ [last]`, every check
passing, with the STOP implicit in the final NACK. -/
def Obligations.HealthyReadregWire : Prop :=
  ∀ (c : Params) (sa ra rs : Byte) (bytes : List Byte) (last : Byte),
    c.stopExplicit = false → (c.validateRstart = true → rs = c.statusCode.rstart) →
    let answers := [(c.statusCode.start, 0), (c.statusCode.slawAck, 0), (c.statusCode.dataTxAck, 0), (rs, 0),
      (c.statusCode.slarAck, 0)] ++ bytes.map (fun d => (c.statusCode.dataRxAck, d)) ++ [(c.statusCode.dataRxNack, last)]
    (runReadreg c sa ra (bytes.length + 1) answers).1 = .ok (bytes ++ [last]) ∧
    wireOf c (runReadreg c sa ra (bytes.length + 1) answers).2 =
      [.start, .tx (addressByte sa .write) (some .ack), .tx ra (some .ack), .repeatedStart,
        .tx (addressByte sa .read) (some .ack)]
        ++ bytes.map (fun d => .rx d .ack) ++ [.rx last .nack, .stop]

/-- R79, R131, R134, R135: with room on the output side throughout, a WRITESTRING of the host pushes its bytes in order and
leaves the host where it was. -/
def Obligations.WritestringPushesText : Prop :=
  ∀ (s : State) (text : List Byte) (prog : List HostOp) (rest : List Move),
    hostWaits s = false → s.serial.txRoom = true →
    s.host.prog = .issue (.writestring text) :: prog →
    s.script = .host :: ((List.replicate text.length writeMoves).flatten ++ rest) →
    ∃ t, core.run (1 + 3 * text.length) s = .next t ∧
      t.evlog = s.evlog ++ text.map .push ∧ txlog t = txlog s ++ text ∧ t.host.prog = prog ∧
      busy t = false ∧ t.script = rest ∧ t.seq = s.seq ∧ t.bus = s.bus ∧ t.serial = s.serial

/-- R132, R133: with room on the output side throughout, a POLLCHAR with echo that finds a byte pushes it and `ECHO_EOL`, and
then gives its result. -/
def Obligations.EchoPushesByteAndTerminator : Prop :=
  ∀ (s : State) (b : Byte) (queue : List Byte) (rest : List Move),
    busy s = false → s.port.cmdValid = true → s.port.cmd = encodePollchar true → s.serial.rxq = b :: queue →
    s.serial.txRoom = true →
    s.script = .accept :: (List.replicate (s.cfg.echoEol.length + 1) .cch ++ rest) →
    ∃ t, core.run (s.cfg.echoEol.length + 2) s = .next t ∧
      txlog t = txlog s ++ b :: s.cfg.echoEol ∧ t.cch.cres = some ⟨true, b⟩ ∧ t.serial.rxq = queue ∧
      busy t = false ∧ t.port.resValid = true ∧ t.script = rest

/-! ## The host software -/

/-- R161, R162: a tick resynchronises on a latch changed from outside, otherwise counts, and at 1000 writes the next pattern.
Whether the scheduler sees its own write is the parameter of 91 N14. The tick runs the scheduler and then, in the variant of
R163, the menu. The model's choices: the callback is one step (log 43); a tick that MASK_REQ holds off (R194) changes nothing
(log 32); so does a tick that comes while the invocation an earlier tick began has not returned (R238; log 19). -/
def Obligations.SchedulerTickEffects : Prop :=
  ∀ s : State,
    (s.latch ≠ s.host.lastSeen → schedulerTick s =
      { s with host := { s.host with lastSeen := s.latch, nextPattern := ~~~s.latch, elapsed := 0 } }) ∧
    (s.latch = s.host.lastSeen → s.host.elapsed + 1 = 1000 →
      (schedulerTick s).latch = s.host.nextPattern ∧ (schedulerTick s).host.nextPattern = ~~~s.host.nextPattern ∧
      (schedulerTick s).host.elapsed = 0 ∧ (schedulerTick s).host.menu = s.host.menu) ∧
    (s.latch = s.host.lastSeen → s.host.elapsed + 1 ≠ 1000 → schedulerTick s =
      { s with host := { s.host with elapsed := s.host.elapsed + 1 } }) ∧
    (s.cfg.maskConnected = false ∨ maskReq s = false →
      (s.cfg.menuFromTick = false → runMove .tick s = .next (schedulerTick s)) ∧
      (s.cfg.menuFromTick = true → menuActive s = false → runMove .tick s = .next (menuInvoke (schedulerTick s)))) ∧
    (s.cfg.menuFromTick = true → menuActive s = true → runMove .tick s = .next s) ∧
    (s.cfg.maskConnected = true → maskReq s = true → runMove .tick s = .next s)

/-- R162, R164: undisturbed from an elapsed count of 0, the latch keeps its value for 999 ticks and takes the next pattern at
the thousandth. -/
def Obligations.LatchTogglesAtThousandthTick : Prop :=
  ∀ (s : State) (n : Nat), s.latch = s.host.lastSeen → s.host.elapsed = 0 → n < 1000 →
    (schedulerTick^[n] s).latch = s.latch ∧ (schedulerTick^[n] s).host.elapsed = n ∧
    (schedulerTick^[1000] s).latch = s.host.nextPattern

/-- R163, R175: the menu is not invoked any more once the "still running" flag is cleared, which MAIN's `q` does while it
enters EXIT with the farewell line. -/
def Obligations.ExitStopsMenu : Prop :=
  (∀ s : State, s.host.running = false → menuInvoke s = s) ∧
  (∀ s : State, s.host.menu.currentState = .main → ∃ t, menuKey 0x71 s = .next t ∧
    t.host.menu.currentState = .exit ∧ t.host.running = false ∧
    t.host.prog = .issue (.writeline Config.farewell) :: s.host.prog)

/-- R155, R177, R138: in every menu state and with either caller (R163: the tick, after the scheduler; R165: a main loop), an
invocation whose screen is already printed and whose poll finds no byte leaves the host, the latch, the bus side and the output as
they were before it, but that UNINITIALIZED becomes MAIN (R151; log 30). -/
def Obligations.NoInputPollIsIdempotent : Prop :=
  ∀ (s u : State) (m : Move) (rest : List Move), s.host.running = true → s.host.menu.screenPrinted = true →
    menuActive s = false → busy s = false → s.port.cmdValid = false → s.serial.rxq = [] →
    (s.cfg.menuFromTick = false ∧ m = .mainLoop ∧ u = s) ∨ (s.cfg.menuFromTick = true ∧ m = .tick ∧ u = schedulerTick s) →
    s.script = m :: .host :: .accept :: .host :: rest →
    ∃ t, core.run 4 s = .next t ∧
      t.host = { u.host with menu := { u.host.menu with
        currentState := if u.host.menu.currentState = .uninitialized then .main else u.host.menu.currentState } } ∧
      t.latch = u.latch ∧ t.seq = u.seq ∧ t.bus = u.bus ∧ t.evlog = u.evlog ∧ t.script = rest

/-- R177: any change of the menu state clears the printed flag, and a flag that is set after a key was set before it; MAIN's `c`,
the forced transition to MAIN itself, clears it too, in UNINITIALIZED as well (R151), and so does SECONDARY's `a`, which reprints. -/
def Obligations.TransitionClearsPrintedFlag : Prop :=
  (∀ (s t : State) (b : Byte), menuKey b s = .next t →
    (t.host.menu.currentState ≠ s.host.menu.currentState → t.host.menu.screenPrinted = false) ∧
    (t.host.menu.screenPrinted = true → s.host.menu.screenPrinted = true)) ∧
  (∀ s : State, s.host.menu.currentState = .main ∨ s.host.menu.currentState = .uninitialized →
    ∃ t, menuKey 0x63 s = .next t ∧ t.host.menu.currentState = .main ∧ t.host.menu.screenPrinted = false) ∧
  (∀ s : State, s.host.menu.currentState = .secondary →
    ∃ t, menuKey 0x61 s = .next t ∧ t.host.menu.currentState = .secondary ∧ t.host.menu.screenPrinted = false)

/-- R172: LED_TOGGLE's `a` turns a latch that is not zero off and a zero latch all-ones; from all-ones, twice gives all-ones
back (95 V8). -/
def Obligations.LedKeyTogglesLatch : Prop :=
  ∀ s : State, s.host.menu.currentState = .ledToggle →
    ∃ t, menuKey 0x61 s = .next t ∧ t.latch = (if s.latch = 0 then 0xFF else 0x00) ∧
      t.host.menu = s.host.menu ∧
      t.host.prog = .issue (.writeline (if s.latch = 0 then toggledOn else toggledOff)) :: s.host.prog

/-- R174: in the two entry states, from an empty entry: the first hex digit is kept as the high nibble, the second sets the
selected address and returns to BUS_MENU; `q` returns to BUS_MENU and leaves the address alone, after no digit and after one; any
other character prints "Invalid input", clears the entry and stays. -/
def Obligations.TwoNibbleEntry : Prop :=
  ∀ (s : State) (hi lo : Nibble) (ch1 ch2 ch : Byte), s.host.menu.entry = ⟨false, 0⟩ →
    s.host.menu.currentState = .busSetSlave ∨ s.host.menu.currentState = .busSetRegister →
    hexDigit ch1 = some hi → hexDigit ch2 = some lo → ch ≠ 0x71 → hexDigit ch = none →
    ∃ one two, menuKey ch1 s = .next one ∧ menuKey ch2 one = .next two ∧
      one.host.menu = { s.host.menu with entry := ⟨true, hi ++ 0#4⟩ } ∧
      two.host.menu = { s.host.menu with
        currentState := .busMenu, screenPrinted := false
        addr := if s.host.menu.currentState = .busSetSlave then { s.host.menu.addr with slaveAddress := hi ++ lo }
          else { s.host.menu.addr with registerAddress := hi ++ lo } } ∧
      (∀ u ∈ [s, one], ∃ q x, menuKey 0x71 u = .next q ∧ menuKey ch u = .next x ∧
        q.host.menu = { s.host.menu with currentState := .busMenu, screenPrinted := false } ∧
        x.host.menu = s.host.menu ∧ x.host.prog = .issue (.writeline invalidInput) :: s.host.prog)

/-- R157, R173: BUS_MENU's `r` issues a READREG of one byte at the current address pair; its `Ok` prints the byte in hex, and
its `Err` prints a visible message when `SURFACE_ERR`. That this message is one line, the same for both reasons, is the model's
choice (log 23; 91 N13 gives no wording). -/
def Obligations.BusMenuReadsAndReports : Prop :=
  (∀ s : State, s.host.menu.currentState = .busMenu → ∃ t, menuKey 0x72 s = .next t ∧
    t.host.prog =
      .issue (.readreg s.host.menu.addr.slaveAddress s.host.menu.addr.registerAddress 1) :: .showRead :: s.host.prog) ∧
  (∀ (s : State) (b : Byte), s.seq.res = .ok → s.seq.cnt = 1 → Memory.read s.seq.rbuf 0 = some b →
    ∃ t, menuResume .showRead s = .next t ∧ t.host.prog = .issue (.writeline (byteHex b)) :: s.host.prog) ∧
  (∀ (s : State) (e : Reason), s.seq.res = .err e → s.cfg.surfaceErr = true →
    ∃ t, menuResume .showRead s = .next t ∧
      t.host.prog = .issue (.writeline Config.errMessage) :: s.host.prog)
end

