-- ==== Sys2Proof/Laws/Encoding.lean ====
section
/-! SUPPORT. Command words as numbers: what each encoder's word is, what each field reads, and a word from its fields. -/

namespace Sys2Proof.Laws

/-- A concatenation as a number. -/
theorem toNat_append_eq {n m : Nat} (x : BitVec n) (y : BitVec m) :
    (x ++ y).toNat = x.toNat * 2 ^ m + y.toNat := by
  rw [BitVec.toNat_append, ← Nat.shiftLeft_add_eq_or_of_lt y.isLt, Nat.shiftLeft_eq]

/-- A field as a number. -/
theorem toNat_field {w : Nat} (x : BitVec w) (lo n : Nat) : (x.extractLsb' lo n).toNat = x.toNat / 2 ^ lo % 2 ^ n := by
  rw [BitVec.extractLsb'_toNat, Nat.shiftRight_eq_div_pow]

/-- READREG's word as a number (R61). -/
theorem encodeReadreg_toNat (sa ra count : Byte) :
    (encodeReadreg sa ra count).toNat = 0x10000000 + count.toNat * 0x10000 + sa.toNat * 0x100 + ra.toNat := by
  unfold encodeReadreg
  rw [toNat_append_eq, toNat_append_eq, toNat_append_eq, toNat_append_eq]
  simp
  omega

/-- POLLCHAR's word as a number (R62). -/
theorem encodePollchar_toNat (echo : Bool) : (encodePollchar echo).toNat = 0x20000000 + echo.toNat := by
  cases echo <;> rfl

/-- WRITECHAR's word as a number (R63). -/
theorem encodeWritechar_toNat (b : Byte) : (encodeWritechar b).toNat = 0x30000000 + b.toNat := by
  unfold encodeWritechar
  rw [toNat_append_eq, toNat_append_eq]
  simp

/-- A command word from its fields (R60). -/
theorem command_toNat (w : CmdWord) :
    w.toNat = (cmdOp w).toNat * 0x10000000 + (cmdZero w).toNat * 0x1000000 + (cmdCount w).toNat * 0x10000
      + (cmdSa w).toNat * 0x100 + (cmdRa w).toNat := by
  simp only [cmdOp, cmdZero, cmdCount, cmdSa, cmdRa, toNat_field]
  have := w.isLt
  omega

variable (sa ra count b : Byte)

@[simp] theorem cmdOp_encodeReadreg : cmdOp (encodeReadreg sa ra count) = 1 := by
  apply BitVec.eq_of_toNat_eq
  rw [cmdOp, toNat_field, encodeReadreg_toNat]
  have := count.isLt; have := sa.isLt; have := ra.isLt
  change _ = (1 : Nat); omega

@[simp] theorem cmdZero_encodeReadreg : cmdZero (encodeReadreg sa ra count) = 0 := by
  apply BitVec.eq_of_toNat_eq
  rw [cmdZero, toNat_field, encodeReadreg_toNat]
  have := count.isLt; have := sa.isLt; have := ra.isLt
  change _ = (0 : Nat); omega

@[simp] theorem cmdCount_encodeReadreg : cmdCount (encodeReadreg sa ra count) = count := by
  apply BitVec.eq_of_toNat_eq
  rw [cmdCount, toNat_field, encodeReadreg_toNat]
  have := count.isLt; have := sa.isLt; have := ra.isLt
  omega

@[simp] theorem cmdSa_encodeReadreg : cmdSa (encodeReadreg sa ra count) = sa := by
  apply BitVec.eq_of_toNat_eq
  rw [cmdSa, toNat_field, encodeReadreg_toNat]
  have := count.isLt; have := sa.isLt; have := ra.isLt
  omega

@[simp] theorem cmdRa_encodeReadreg : cmdRa (encodeReadreg sa ra count) = ra := by
  apply BitVec.eq_of_toNat_eq
  rw [cmdRa, toNat_field, encodeReadreg_toNat]
  have := count.isLt; have := sa.isLt; have := ra.isLt
  omega

@[simp] theorem cmdOp_encodeWritechar : cmdOp (encodeWritechar b) = 3 := by
  apply BitVec.eq_of_toNat_eq
  rw [cmdOp, toNat_field, encodeWritechar_toNat]
  have := b.isLt
  change _ = (3 : Nat); omega

@[simp] theorem cmdZero_encodeWritechar : cmdZero (encodeWritechar b) = 0 := by
  apply BitVec.eq_of_toNat_eq
  rw [cmdZero, toNat_field, encodeWritechar_toNat]
  have := b.isLt
  change _ = (0 : Nat); omega

@[simp] theorem cmdRa_encodeWritechar : cmdRa (encodeWritechar b) = b := by
  apply BitVec.eq_of_toNat_eq
  rw [cmdRa, toNat_field, encodeWritechar_toNat]
  have := b.isLt
  omega

@[simp] theorem writeField_encodeWritechar : (encodeWritechar b).extractLsb' 8 16 = 0 := by
  apply BitVec.eq_of_toNat_eq
  rw [toNat_field, encodeWritechar_toNat]
  have := b.isLt
  change _ = (0 : Nat); omega

end Sys2Proof.Laws
end

