-- ==== Sys2Proof/Laws/Memory.lean ====
section
/-! SUPPORT. The laws of the byte memory that holds RBUF: reading after writing, and that a write keeps the canonical form. -/

namespace Sys2Proof.Laws

open Sys2Proof.Machine

/-- Reading the address just written gives the value written. -/
@[simp] theorem memory_read_write_same (m : Memory) (a : Nat) (v : Byte) :
    Memory.read (Memory.write m a v) a = some v := by
  induction m with
  | nil => simp [Memory.write, Memory.read]
  | cons c m ih =>
    obtain ⟨k, b⟩ := c
    by_cases h : a < k
    · simp [Memory.write, Memory.read, h]
    · by_cases e : a = k
      · simp [Memory.write, Memory.read, e]
      · simp [Memory.write, Memory.read, h, e, ih, Ne.symm e]

/-- A write leaves every other address as it was. -/
theorem memory_read_write_other (m : Memory) (v : Byte) {a i : Nat} (hne : i ≠ a) :
    Memory.read (Memory.write m a v) i = Memory.read m i := by
  induction m with
  | nil => simp [Memory.write, Memory.read, Ne.symm hne]
  | cons c m ih =>
    obtain ⟨k, b⟩ := c
    by_cases h : a < k
    · simp [Memory.write, Memory.read, h, Ne.symm hne]
    · by_cases e : a = k
      · subst e; simp [Memory.write, Memory.read, Ne.symm hne]
      · simp [Memory.write, Memory.read, h, e, ih]

/-- A lower bound of the addresses may be lowered. -/
theorem memory_risingFrom_mono {m : Memory} {lo hi : Nat} (hle : lo ≤ hi)
    (h : Memory.risingFrom hi m = true) : Memory.risingFrom lo m = true := by
  cases m with
  | nil => rfl
  | cons c m =>
    obtain ⟨k, b⟩ := c
    simp only [Memory.risingFrom, Bool.and_eq_true, decide_eq_true_eq] at h ⊢
    exact ⟨by omega, h.2⟩

/-- A write at or above the lower bound keeps the addresses strictly rising. -/
theorem memory_risingFrom_write {m : Memory} {lo a : Nat} {v : Byte} (hlo : lo ≤ a)
    (h : Memory.risingFrom lo m = true) : Memory.risingFrom lo (Memory.write m a v) = true := by
  induction m generalizing lo with
  | nil => simp [Memory.write, Memory.risingFrom, hlo]
  | cons c m ih =>
    obtain ⟨k, b⟩ := c
    simp only [Memory.risingFrom, Bool.and_eq_true, decide_eq_true_eq] at h
    by_cases hk : a < k
    · simp [Memory.write, Memory.risingFrom, hk, hlo, h.2, Nat.succ_le_of_lt hk]
    · by_cases e : a = k
      · subst e; simp [Memory.write, Memory.risingFrom, hlo, h.2]
      · simp [Memory.write, Memory.risingFrom, hk, e, h.1, ih (by omega : k + 1 ≤ a) h.2]

/-- A write below `COUNT_MAX` keeps every address below `COUNT_MAX`. -/
theorem memory_all_write {m : Memory} {a : Nat} {v : Byte} (ha : a < countMaxHere)
    (h : (m.all fun c => decide (c.1 < countMaxHere)) = true) :
    ((Memory.write m a v).all fun c => decide (c.1 < countMaxHere)) = true := by
  induction m with
  | nil => simp [Memory.write, ha]
  | cons c m ih =>
    obtain ⟨k, b⟩ := c
    simp only [List.all_cons, Bool.and_eq_true] at h
    by_cases hk : a < k
    · simp only [Memory.write, hk, if_true, List.all_cons, ha, decide_true, h.1, h.2, Bool.and_self]
    · by_cases e : a = k
      · subst e
        simp only [Memory.write, lt_irrefl, if_false, if_true, List.all_cons, h.1, h.2, Bool.and_self]
      · simp only [Memory.write, hk, e, if_false, List.all_cons, h.1, ih h.2, Bool.and_self]

/-- A write below `COUNT_MAX` keeps the canonical form. -/
theorem memory_wf_write {m : Memory} {a : Nat} {v : Byte} (ha : a < countMaxHere) (h : Memory.wf m = true) :
    Memory.wf (Memory.write m a v) = true := by
  simp only [Memory.wf, Bool.and_eq_true] at h ⊢
  exact ⟨memory_risingFrom_write (Nat.zero_le a) h.1, memory_all_write ha h.2⟩

/-- The receive buffer after reset has the canonical form. -/
theorem memory_wf_reset : Memory.wf State.reset.seq.rbuf = true := rfl

/-- The canonical form survives every store SEQ makes. -/
theorem memory_wf_storeByte (s : State) (hi : s.seq.idx.toNat < countMaxHere) (h : Memory.wf s.seq.rbuf = true) :
    Memory.wf (storeByte s).seq.rbuf = true := memory_wf_write hi h

end Sys2Proof.Laws
end

