-- ==== Sys2Proof/Laws/State.lean ====
section
/-! SUPPORT. One lemma per field of State for each operation that updates it, all true by rfl. -/

namespace Sys2Proof.Laws

open Sys2Proof.Machine

variable (s : State)

/-! ## pokeData -/

@[simp] theorem pokeData_cfg (b : Byte) : (pokeData b s).cfg = s.cfg := rfl
@[simp] theorem pokeData_seq (b : Byte) : (pokeData b s).seq = s.seq := rfl
@[simp] theorem pokeData_cch (b : Byte) : (pokeData b s).cch = s.cch := rfl
@[simp] theorem pokeData_port (b : Byte) : (pokeData b s).port = s.port := rfl
@[simp] theorem pokeData_bus (b : Byte) : (pokeData b s).bus = { s.bus with data := b, dataPoked := true } := rfl
@[simp] theorem pokeData_serial (b : Byte) : (pokeData b s).serial = s.serial := rfl
@[simp] theorem pokeData_latch (b : Byte) : (pokeData b s).latch = s.latch := rfl
@[simp] theorem pokeData_host (b : Byte) : (pokeData b s).host = s.host := rfl
@[simp] theorem pokeData_evlog (b : Byte) : (pokeData b s).evlog = s.evlog := rfl
@[simp] theorem pokeData_script (b : Byte) : (pokeData b s).script = s.script := rfl
@[simp] theorem pokeData_freeIdx (b : Byte) : (pokeData b s).freeIdx = s.freeIdx := rfl

/-! ## submit -/

@[simp] theorem submit_cfg (cw : ControlWord) : (submit cw s).cfg = s.cfg := rfl
@[simp] theorem submit_seq (cw : ControlWord) : (submit cw s).seq = { s.seq with polls := 0 } := rfl
@[simp] theorem submit_cch (cw : ControlWord) : (submit cw s).cch = s.cch := rfl
@[simp] theorem submit_port (cw : ControlWord) : (submit cw s).port = s.port := rfl
@[simp] theorem submit_bus (cw : ControlWord) : (submit cw s).bus = { s.bus with txn := s.cfg.cwCode.code cw, done := false, pending := some (actionOf cw s.bus.data), dataPoked := false } := rfl
@[simp] theorem submit_serial (cw : ControlWord) : (submit cw s).serial = s.serial := rfl
@[simp] theorem submit_latch (cw : ControlWord) : (submit cw s).latch = s.latch := rfl
@[simp] theorem submit_host (cw : ControlWord) : (submit cw s).host = s.host := rfl
@[simp] theorem submit_evlog (cw : ControlWord) : (submit cw s).evlog = s.evlog ++ [.submit (actionOf cw s.bus.data)] := rfl
@[simp] theorem submit_script (cw : ControlWord) : (submit cw s).script = s.script := rfl
@[simp] theorem submit_freeIdx (cw : ControlWord) : (submit cw s).freeIdx = s.freeIdx := rfl

/-! ## submitTx -/

@[simp] theorem submitTx_cfg (b : Byte) : (submitTx b s).cfg = s.cfg := rfl
@[simp] theorem submitTx_seq (b : Byte) : (submitTx b s).seq = { s.seq with polls := 0 } := rfl
@[simp] theorem submitTx_cch (b : Byte) : (submitTx b s).cch = s.cch := rfl
@[simp] theorem submitTx_port (b : Byte) : (submitTx b s).port = s.port := rfl
@[simp] theorem submitTx_bus (b : Byte) : (submitTx b s).bus = { txn := s.cfg.cwCode.tx, data := b, status := s.bus.status, done := false, pending := some (.tx b), dataPoked := false } := rfl
@[simp] theorem submitTx_serial (b : Byte) : (submitTx b s).serial = s.serial := rfl
@[simp] theorem submitTx_latch (b : Byte) : (submitTx b s).latch = s.latch := rfl
@[simp] theorem submitTx_host (b : Byte) : (submitTx b s).host = s.host := rfl
@[simp] theorem submitTx_evlog (b : Byte) : (submitTx b s).evlog = s.evlog ++ [.submit (.tx b)] := rfl
@[simp] theorem submitTx_script (b : Byte) : (submitTx b s).script = s.script := rfl
@[simp] theorem submitTx_freeIdx (b : Byte) : (submitTx b s).freeIdx = s.freeIdx := rfl

/-! ## setPhase -/

@[simp] theorem setPhase_cfg (p : Phase) : (setPhase p s).cfg = s.cfg := rfl
@[simp] theorem setPhase_seq (p : Phase) : (setPhase p s).seq = { s.seq with ph := p } := rfl
@[simp] theorem setPhase_cch (p : Phase) : (setPhase p s).cch = s.cch := rfl
@[simp] theorem setPhase_port (p : Phase) : (setPhase p s).port = s.port := rfl
@[simp] theorem setPhase_bus (p : Phase) : (setPhase p s).bus = s.bus := rfl
@[simp] theorem setPhase_serial (p : Phase) : (setPhase p s).serial = s.serial := rfl
@[simp] theorem setPhase_latch (p : Phase) : (setPhase p s).latch = s.latch := rfl
@[simp] theorem setPhase_host (p : Phase) : (setPhase p s).host = s.host := rfl
@[simp] theorem setPhase_evlog (p : Phase) : (setPhase p s).evlog = s.evlog := rfl
@[simp] theorem setPhase_script (p : Phase) : (setPhase p s).script = s.script := rfl
@[simp] theorem setPhase_freeIdx (p : Phase) : (setPhase p s).freeIdx = s.freeIdx := rfl

/-! ## abort -/

@[simp] theorem abort_cfg (r : Reason) : (abort r s).cfg = s.cfg := rfl
@[simp] theorem abort_seq (r : Reason) : (abort r s).seq = { s.seq with res := .err r, ph := .idle } := rfl
@[simp] theorem abort_cch (r : Reason) : (abort r s).cch = s.cch := rfl
@[simp] theorem abort_port (r : Reason) : (abort r s).port = { s.port with resValid := true } := rfl
@[simp] theorem abort_bus (r : Reason) : (abort r s).bus = s.bus := rfl
@[simp] theorem abort_serial (r : Reason) : (abort r s).serial = s.serial := rfl
@[simp] theorem abort_latch (r : Reason) : (abort r s).latch = s.latch := rfl
@[simp] theorem abort_host (r : Reason) : (abort r s).host = s.host := rfl
@[simp] theorem abort_evlog (r : Reason) : (abort r s).evlog = s.evlog := rfl
@[simp] theorem abort_script (r : Reason) : (abort r s).script = s.script := rfl
@[simp] theorem abort_freeIdx (r : Reason) : (abort r s).freeIdx = s.freeIdx := rfl

/-! ## setOk -/

@[simp] theorem setOk_cfg : (setOk s).cfg = s.cfg := rfl
@[simp] theorem setOk_seq : (setOk s).seq = { s.seq with res := .ok, ph := .idle } := rfl
@[simp] theorem setOk_cch : (setOk s).cch = s.cch := rfl
@[simp] theorem setOk_port : (setOk s).port = { s.port with resValid := true } := rfl
@[simp] theorem setOk_bus : (setOk s).bus = s.bus := rfl
@[simp] theorem setOk_serial : (setOk s).serial = s.serial := rfl
@[simp] theorem setOk_latch : (setOk s).latch = s.latch := rfl
@[simp] theorem setOk_host : (setOk s).host = s.host := rfl
@[simp] theorem setOk_evlog : (setOk s).evlog = s.evlog := rfl
@[simp] theorem setOk_script : (setOk s).script = s.script := rfl
@[simp] theorem setOk_freeIdx : (setOk s).freeIdx = s.freeIdx := rfl

/-! ## storeByte -/

@[simp] theorem storeByte_cfg : (storeByte s).cfg = s.cfg := rfl
@[simp] theorem storeByte_seq : (storeByte s).seq = { s.seq with rbuf := Memory.write s.seq.rbuf s.seq.idx.toNat s.bus.data } := rfl
@[simp] theorem storeByte_cch : (storeByte s).cch = s.cch := rfl
@[simp] theorem storeByte_port : (storeByte s).port = s.port := rfl
@[simp] theorem storeByte_bus : (storeByte s).bus = s.bus := rfl
@[simp] theorem storeByte_serial : (storeByte s).serial = s.serial := rfl
@[simp] theorem storeByte_latch : (storeByte s).latch = s.latch := rfl
@[simp] theorem storeByte_host : (storeByte s).host = s.host := rfl
@[simp] theorem storeByte_evlog : (storeByte s).evlog = s.evlog := rfl
@[simp] theorem storeByte_script : (storeByte s).script = s.script := rfl
@[simp] theorem storeByte_freeIdx : (storeByte s).freeIdx = s.freeIdx := rfl

/-! ## beginCommand -/

@[simp] theorem beginCommand_cfg (k : CommandKind) : (beginCommand k s).cfg = s.cfg := rfl
@[simp] theorem beginCommand_seq (k : CommandKind) : (beginCommand k s).seq = s.seq := rfl
@[simp] theorem beginCommand_cch (k : CommandKind) : (beginCommand k s).cch = s.cch := rfl
@[simp] theorem beginCommand_port (k : CommandKind) : (beginCommand k s).port = { s.port with resValid := false, rop := some k } := rfl
@[simp] theorem beginCommand_bus (k : CommandKind) : (beginCommand k s).bus = s.bus := rfl
@[simp] theorem beginCommand_serial (k : CommandKind) : (beginCommand k s).serial = s.serial := rfl
@[simp] theorem beginCommand_latch (k : CommandKind) : (beginCommand k s).latch = s.latch := rfl
@[simp] theorem beginCommand_host (k : CommandKind) : (beginCommand k s).host = s.host := rfl
@[simp] theorem beginCommand_evlog (k : CommandKind) : (beginCommand k s).evlog = s.evlog := rfl
@[simp] theorem beginCommand_script (k : CommandKind) : (beginCommand k s).script = s.script := rfl
@[simp] theorem beginCommand_freeIdx (k : CommandKind) : (beginCommand k s).freeIdx = s.freeIdx := rfl

/-! ## endCommand -/

@[simp] theorem endCommand_cfg : (endCommand s).cfg = s.cfg := rfl
@[simp] theorem endCommand_seq : (endCommand s).seq = s.seq := rfl
@[simp] theorem endCommand_cch : (endCommand s).cch = s.cch := rfl
@[simp] theorem endCommand_port : (endCommand s).port = { s.port with resValid := true } := rfl
@[simp] theorem endCommand_bus : (endCommand s).bus = s.bus := rfl
@[simp] theorem endCommand_serial : (endCommand s).serial = s.serial := rfl
@[simp] theorem endCommand_latch : (endCommand s).latch = s.latch := rfl
@[simp] theorem endCommand_host : (endCommand s).host = s.host := rfl
@[simp] theorem endCommand_evlog : (endCommand s).evlog = s.evlog := rfl
@[simp] theorem endCommand_script : (endCommand s).script = s.script := rfl
@[simp] theorem endCommand_freeIdx : (endCommand s).freeIdx = s.freeIdx := rfl

/-! ## popByte -/

@[simp] theorem popByte_cfg (b : Byte) (rest : List Byte) : (popByte b rest s).cfg = s.cfg := rfl
@[simp] theorem popByte_seq (b : Byte) (rest : List Byte) : (popByte b rest s).seq = s.seq := rfl
@[simp] theorem popByte_cch (b : Byte) (rest : List Byte) : (popByte b rest s).cch = s.cch := rfl
@[simp] theorem popByte_port (b : Byte) (rest : List Byte) : (popByte b rest s).port = s.port := rfl
@[simp] theorem popByte_bus (b : Byte) (rest : List Byte) : (popByte b rest s).bus = s.bus := rfl
@[simp] theorem popByte_serial (b : Byte) (rest : List Byte) : (popByte b rest s).serial = { s.serial with rxq := rest } := rfl
@[simp] theorem popByte_latch (b : Byte) (rest : List Byte) : (popByte b rest s).latch = s.latch := rfl
@[simp] theorem popByte_host (b : Byte) (rest : List Byte) : (popByte b rest s).host = s.host := rfl
@[simp] theorem popByte_evlog (b : Byte) (rest : List Byte) : (popByte b rest s).evlog = s.evlog ++ [.pop b] := rfl
@[simp] theorem popByte_script (b : Byte) (rest : List Byte) : (popByte b rest s).script = s.script := rfl
@[simp] theorem popByte_freeIdx (b : Byte) (rest : List Byte) : (popByte b rest s).freeIdx = s.freeIdx := rfl

/-! ## pushByte -/

@[simp] theorem pushByte_cfg (b : Byte) : (pushByte b s).cfg = s.cfg := rfl
@[simp] theorem pushByte_seq (b : Byte) : (pushByte b s).seq = s.seq := rfl
@[simp] theorem pushByte_cch (b : Byte) : (pushByte b s).cch = s.cch := rfl
@[simp] theorem pushByte_port (b : Byte) : (pushByte b s).port = s.port := rfl
@[simp] theorem pushByte_bus (b : Byte) : (pushByte b s).bus = s.bus := rfl
@[simp] theorem pushByte_serial (b : Byte) : (pushByte b s).serial = s.serial := rfl
@[simp] theorem pushByte_latch (b : Byte) : (pushByte b s).latch = s.latch := rfl
@[simp] theorem pushByte_host (b : Byte) : (pushByte b s).host = s.host := rfl
@[simp] theorem pushByte_evlog (b : Byte) : (pushByte b s).evlog = s.evlog ++ [.push b] := rfl
@[simp] theorem pushByte_script (b : Byte) : (pushByte b s).script = s.script := rfl
@[simp] theorem pushByte_freeIdx (b : Byte) : (pushByte b s).freeIdx = s.freeIdx := rfl

/-! ## beginSend -/

@[simp] theorem beginSend_cfg (p : CharPhase) (b : Byte) (q : List Byte) : (beginSend p b q s).cfg = s.cfg := rfl
@[simp] theorem beginSend_seq (p : CharPhase) (b : Byte) (q : List Byte) : (beginSend p b q s).seq = s.seq := rfl
@[simp] theorem beginSend_cch (p : CharPhase) (b : Byte) (q : List Byte) : (beginSend p b q s).cch = { s.cch with cph := p, cb := b, cq := q } := rfl
@[simp] theorem beginSend_port (p : CharPhase) (b : Byte) (q : List Byte) : (beginSend p b q s).port = s.port := rfl
@[simp] theorem beginSend_bus (p : CharPhase) (b : Byte) (q : List Byte) : (beginSend p b q s).bus = s.bus := rfl
@[simp] theorem beginSend_serial (p : CharPhase) (b : Byte) (q : List Byte) : (beginSend p b q s).serial = s.serial := rfl
@[simp] theorem beginSend_latch (p : CharPhase) (b : Byte) (q : List Byte) : (beginSend p b q s).latch = s.latch := rfl
@[simp] theorem beginSend_host (p : CharPhase) (b : Byte) (q : List Byte) : (beginSend p b q s).host = s.host := rfl
@[simp] theorem beginSend_evlog (p : CharPhase) (b : Byte) (q : List Byte) : (beginSend p b q s).evlog = s.evlog := rfl
@[simp] theorem beginSend_script (p : CharPhase) (b : Byte) (q : List Byte) : (beginSend p b q s).script = s.script := rfl
@[simp] theorem beginSend_freeIdx (p : CharPhase) (b : Byte) (q : List Byte) : (beginSend p b q s).freeIdx = s.freeIdx := rfl

/-! ## drawn -/

@[simp] theorem drawn_cfg : (drawn s).cfg = s.cfg := rfl
@[simp] theorem drawn_seq : (drawn s).seq = s.seq := rfl
@[simp] theorem drawn_cch : (drawn s).cch = s.cch := rfl
@[simp] theorem drawn_port : (drawn s).port = s.port := rfl
@[simp] theorem drawn_bus : (drawn s).bus = s.bus := rfl
@[simp] theorem drawn_serial : (drawn s).serial = s.serial := rfl
@[simp] theorem drawn_latch : (drawn s).latch = s.latch := rfl
@[simp] theorem drawn_host : (drawn s).host = s.host := rfl
@[simp] theorem drawn_evlog : (drawn s).evlog = s.evlog := rfl
@[simp] theorem drawn_script : (drawn s).script = s.script := rfl
@[simp] theorem drawn_freeIdx : (drawn s).freeIdx = s.freeIdx + 1 := rfl

/-! ## presentCommand -/

@[simp] theorem presentCommand_cfg (w : CmdWord) : (presentCommand w s).cfg = s.cfg := rfl
@[simp] theorem presentCommand_seq (w : CmdWord) : (presentCommand w s).seq = s.seq := rfl
@[simp] theorem presentCommand_cch (w : CmdWord) : (presentCommand w s).cch = s.cch := rfl
@[simp] theorem presentCommand_port (w : CmdWord) : (presentCommand w s).port = { s.port with cmdValid := true, cmd := w } := rfl
@[simp] theorem presentCommand_bus (w : CmdWord) : (presentCommand w s).bus = s.bus := rfl
@[simp] theorem presentCommand_serial (w : CmdWord) : (presentCommand w s).serial = s.serial := rfl
@[simp] theorem presentCommand_latch (w : CmdWord) : (presentCommand w s).latch = s.latch := rfl
@[simp] theorem presentCommand_host (w : CmdWord) : (presentCommand w s).host = s.host := rfl
@[simp] theorem presentCommand_evlog (w : CmdWord) : (presentCommand w s).evlog = s.evlog := rfl
@[simp] theorem presentCommand_script (w : CmdWord) : (presentCommand w s).script = s.script := rfl
@[simp] theorem presentCommand_freeIdx (w : CmdWord) : (presentCommand w s).freeIdx = s.freeIdx := rfl

/-! ## withdrawCommand -/

@[simp] theorem withdrawCommand_cfg : (withdrawCommand s).cfg = s.cfg := rfl
@[simp] theorem withdrawCommand_seq : (withdrawCommand s).seq = s.seq := rfl
@[simp] theorem withdrawCommand_cch : (withdrawCommand s).cch = s.cch := rfl
@[simp] theorem withdrawCommand_port : (withdrawCommand s).port = { s.port with cmdValid := false } := rfl
@[simp] theorem withdrawCommand_bus : (withdrawCommand s).bus = s.bus := rfl
@[simp] theorem withdrawCommand_serial : (withdrawCommand s).serial = s.serial := rfl
@[simp] theorem withdrawCommand_latch : (withdrawCommand s).latch = s.latch := rfl
@[simp] theorem withdrawCommand_host : (withdrawCommand s).host = s.host := rfl
@[simp] theorem withdrawCommand_evlog : (withdrawCommand s).evlog = s.evlog := rfl
@[simp] theorem withdrawCommand_script : (withdrawCommand s).script = s.script := rfl
@[simp] theorem withdrawCommand_freeIdx : (withdrawCommand s).freeIdx = s.freeIdx := rfl

/-! ## selectRbuf -/

@[simp] theorem selectRbuf_cfg (i : Byte) : (selectRbuf i s).cfg = s.cfg := rfl
@[simp] theorem selectRbuf_seq (i : Byte) : (selectRbuf i s).seq = s.seq := rfl
@[simp] theorem selectRbuf_cch (i : Byte) : (selectRbuf i s).cch = s.cch := rfl
@[simp] theorem selectRbuf_port (i : Byte) : (selectRbuf i s).port = { s.port with rbufIdx := i } := rfl
@[simp] theorem selectRbuf_bus (i : Byte) : (selectRbuf i s).bus = s.bus := rfl
@[simp] theorem selectRbuf_serial (i : Byte) : (selectRbuf i s).serial = s.serial := rfl
@[simp] theorem selectRbuf_latch (i : Byte) : (selectRbuf i s).latch = s.latch := rfl
@[simp] theorem selectRbuf_host (i : Byte) : (selectRbuf i s).host = s.host := rfl
@[simp] theorem selectRbuf_evlog (i : Byte) : (selectRbuf i s).evlog = s.evlog := rfl
@[simp] theorem selectRbuf_script (i : Byte) : (selectRbuf i s).script = s.script := rfl
@[simp] theorem selectRbuf_freeIdx (i : Byte) : (selectRbuf i s).freeIdx = s.freeIdx := rfl

/-! ## setRoom -/

@[simp] theorem setRoom_cfg (v : Bool) : (setRoom v s).cfg = s.cfg := rfl
@[simp] theorem setRoom_seq (v : Bool) : (setRoom v s).seq = s.seq := rfl
@[simp] theorem setRoom_cch (v : Bool) : (setRoom v s).cch = s.cch := rfl
@[simp] theorem setRoom_port (v : Bool) : (setRoom v s).port = s.port := rfl
@[simp] theorem setRoom_bus (v : Bool) : (setRoom v s).bus = s.bus := rfl
@[simp] theorem setRoom_serial (v : Bool) : (setRoom v s).serial = { s.serial with txRoom := v } := rfl
@[simp] theorem setRoom_latch (v : Bool) : (setRoom v s).latch = s.latch := rfl
@[simp] theorem setRoom_host (v : Bool) : (setRoom v s).host = s.host := rfl
@[simp] theorem setRoom_evlog (v : Bool) : (setRoom v s).evlog = s.evlog := rfl
@[simp] theorem setRoom_script (v : Bool) : (setRoom v s).script = s.script := rfl
@[simp] theorem setRoom_freeIdx (v : Bool) : (setRoom v s).freeIdx = s.freeIdx := rfl

/-! ## setLatch -/

@[simp] theorem setLatch_cfg (v : Byte) : (setLatch v s).cfg = s.cfg := rfl
@[simp] theorem setLatch_seq (v : Byte) : (setLatch v s).seq = s.seq := rfl
@[simp] theorem setLatch_cch (v : Byte) : (setLatch v s).cch = s.cch := rfl
@[simp] theorem setLatch_port (v : Byte) : (setLatch v s).port = s.port := rfl
@[simp] theorem setLatch_bus (v : Byte) : (setLatch v s).bus = s.bus := rfl
@[simp] theorem setLatch_serial (v : Byte) : (setLatch v s).serial = s.serial := rfl
@[simp] theorem setLatch_latch (v : Byte) : (setLatch v s).latch = v := rfl
@[simp] theorem setLatch_host (v : Byte) : (setLatch v s).host = s.host := rfl
@[simp] theorem setLatch_evlog (v : Byte) : (setLatch v s).evlog = s.evlog := rfl
@[simp] theorem setLatch_script (v : Byte) : (setLatch v s).script = s.script := rfl
@[simp] theorem setLatch_freeIdx (v : Byte) : (setLatch v s).freeIdx = s.freeIdx := rfl

/-! ## hostCall -/

@[simp] theorem hostCall_cfg (ops : List HostOp) : (hostCall ops s).cfg = s.cfg := rfl
@[simp] theorem hostCall_seq (ops : List HostOp) : (hostCall ops s).seq = s.seq := rfl
@[simp] theorem hostCall_cch (ops : List HostOp) : (hostCall ops s).cch = s.cch := rfl
@[simp] theorem hostCall_port (ops : List HostOp) : (hostCall ops s).port = s.port := rfl
@[simp] theorem hostCall_bus (ops : List HostOp) : (hostCall ops s).bus = s.bus := rfl
@[simp] theorem hostCall_serial (ops : List HostOp) : (hostCall ops s).serial = s.serial := rfl
@[simp] theorem hostCall_latch (ops : List HostOp) : (hostCall ops s).latch = s.latch := rfl
@[simp] theorem hostCall_host (ops : List HostOp) : (hostCall ops s).host = { s.host with prog := ops ++ s.host.prog } := rfl
@[simp] theorem hostCall_evlog (ops : List HostOp) : (hostCall ops s).evlog = s.evlog := rfl
@[simp] theorem hostCall_script (ops : List HostOp) : (hostCall ops s).script = s.script := rfl
@[simp] theorem hostCall_freeIdx (ops : List HostOp) : (hostCall ops s).freeIdx = s.freeIdx := rfl

/-! ## reprint -/

@[simp] theorem reprint_cfg : (reprint s).cfg = s.cfg := rfl
@[simp] theorem reprint_seq : (reprint s).seq = s.seq := rfl
@[simp] theorem reprint_cch : (reprint s).cch = s.cch := rfl
@[simp] theorem reprint_port : (reprint s).port = s.port := rfl
@[simp] theorem reprint_bus : (reprint s).bus = s.bus := rfl
@[simp] theorem reprint_serial : (reprint s).serial = s.serial := rfl
@[simp] theorem reprint_latch : (reprint s).latch = s.latch := rfl
@[simp] theorem reprint_host : (reprint s).host = { s.host with menu := { s.host.menu with screenPrinted := false } } := rfl
@[simp] theorem reprint_evlog : (reprint s).evlog = s.evlog := rfl
@[simp] theorem reprint_script : (reprint s).script = s.script := rfl
@[simp] theorem reprint_freeIdx : (reprint s).freeIdx = s.freeIdx := rfl

/-! ## clearEntry -/

@[simp] theorem clearEntry_cfg : (clearEntry s).cfg = s.cfg := rfl
@[simp] theorem clearEntry_seq : (clearEntry s).seq = s.seq := rfl
@[simp] theorem clearEntry_cch : (clearEntry s).cch = s.cch := rfl
@[simp] theorem clearEntry_port : (clearEntry s).port = s.port := rfl
@[simp] theorem clearEntry_bus : (clearEntry s).bus = s.bus := rfl
@[simp] theorem clearEntry_serial : (clearEntry s).serial = s.serial := rfl
@[simp] theorem clearEntry_latch : (clearEntry s).latch = s.latch := rfl
@[simp] theorem clearEntry_host : (clearEntry s).host = { s.host with menu := { s.host.menu with entry := ⟨false, 0⟩ } } := rfl
@[simp] theorem clearEntry_evlog : (clearEntry s).evlog = s.evlog := rfl
@[simp] theorem clearEntry_script : (clearEntry s).script = s.script := rfl
@[simp] theorem clearEntry_freeIdx : (clearEntry s).freeIdx = s.freeIdx := rfl

/-! ## markPrinted -/

@[simp] theorem markPrinted_cfg : (markPrinted s).cfg = s.cfg := rfl
@[simp] theorem markPrinted_seq : (markPrinted s).seq = s.seq := rfl
@[simp] theorem markPrinted_cch : (markPrinted s).cch = s.cch := rfl
@[simp] theorem markPrinted_port : (markPrinted s).port = s.port := rfl
@[simp] theorem markPrinted_bus : (markPrinted s).bus = s.bus := rfl
@[simp] theorem markPrinted_serial : (markPrinted s).serial = s.serial := rfl
@[simp] theorem markPrinted_latch : (markPrinted s).latch = s.latch := rfl
@[simp] theorem markPrinted_host : (markPrinted s).host = { s.host with menu := { s.host.menu with screenPrinted := true } } := rfl
@[simp] theorem markPrinted_evlog : (markPrinted s).evlog = s.evlog := rfl
@[simp] theorem markPrinted_script : (markPrinted s).script = s.script := rfl
@[simp] theorem markPrinted_freeIdx : (markPrinted s).freeIdx = s.freeIdx := rfl

/-! ## hostGoesOn -/

@[simp] theorem hostGoesOn_cfg (rest : List HostOp) : (hostGoesOn rest s).cfg = s.cfg := rfl
@[simp] theorem hostGoesOn_seq (rest : List HostOp) : (hostGoesOn rest s).seq = s.seq := rfl
@[simp] theorem hostGoesOn_cch (rest : List HostOp) : (hostGoesOn rest s).cch = s.cch := rfl
@[simp] theorem hostGoesOn_port (rest : List HostOp) : (hostGoesOn rest s).port = s.port := rfl
@[simp] theorem hostGoesOn_bus (rest : List HostOp) : (hostGoesOn rest s).bus = s.bus := rfl
@[simp] theorem hostGoesOn_serial (rest : List HostOp) : (hostGoesOn rest s).serial = s.serial := rfl
@[simp] theorem hostGoesOn_latch (rest : List HostOp) : (hostGoesOn rest s).latch = s.latch := rfl
@[simp] theorem hostGoesOn_host (rest : List HostOp) : (hostGoesOn rest s).host = { s.host with prog := rest, awaiting := false } := rfl
@[simp] theorem hostGoesOn_evlog (rest : List HostOp) : (hostGoesOn rest s).evlog = s.evlog := rfl
@[simp] theorem hostGoesOn_script (rest : List HostOp) : (hostGoesOn rest s).script = s.script := rfl
@[simp] theorem hostGoesOn_freeIdx (rest : List HostOp) : (hostGoesOn rest s).freeIdx = s.freeIdx := rfl

/-! ## enter -/

@[simp] theorem enter_cfg (m : MenuState) : (enter m s).cfg = s.cfg := rfl
@[simp] theorem enter_seq (m : MenuState) : (enter m s).seq = s.seq := rfl
@[simp] theorem enter_cch (m : MenuState) : (enter m s).cch = s.cch := rfl
@[simp] theorem enter_port (m : MenuState) : (enter m s).port = s.port := rfl
@[simp] theorem enter_bus (m : MenuState) : (enter m s).bus = s.bus := rfl
@[simp] theorem enter_serial (m : MenuState) : (enter m s).serial = s.serial := rfl
@[simp] theorem enter_latch (m : MenuState) : (enter m s).latch = s.latch := rfl
@[simp] theorem enter_host (m : MenuState) : (enter m s).host = { s.host with menu := { s.host.menu with currentState := m, screenPrinted := false }, freshEntry := true } := rfl
@[simp] theorem enter_evlog (m : MenuState) : (enter m s).evlog = s.evlog := rfl
@[simp] theorem enter_script (m : MenuState) : (enter m s).script = s.script := rfl
@[simp] theorem enter_freeIdx (m : MenuState) : (enter m s).freeIdx = s.freeIdx := rfl

end Sys2Proof.Laws
end

