-- ==== Sys2Proof/Laws/Ops.lean ====
section
/-! SUPPORT. What each shared operation can do, said once: if it answers a next state, one of these cases holds. -/

namespace Sys2Proof.Laws

open Sys2Proof.Machine

variable {s t : State}

/-! ## The wait, the check, the end of a READREG -/

/-- A step of the wait that answers next: a poll that found `DONE = 0`, or the completion rule. -/
theorem awaitDone_next {k : State → Host.Outcome State Fault Refusal} (h : awaitDone k s = .next t) :
    (s.bus.done = false ∧ t = pollAgain s) ∨ (s.bus.done = true ∧ k s = .next t) := by
  unfold awaitDone at h
  split at h
  · exact .inr ⟨‹_›, h⟩
  · cases h; exact .inl ⟨eq_false_of_ne_true ‹_›, rfl⟩

/-- A poll: nothing changes, or the poll is counted, or the bound is reached and the READREG aborts. -/
theorem pollAgain_cases (s : State) :
    (s.cfg.timeoutPolls = none ∧ pollAgain s = s) ∨
    (∃ l, s.cfg.timeoutPolls = some l ∧ s.seq.polls + 1 < l ∧
      pollAgain s = { s with seq.polls := s.seq.polls + 1 }) ∨
    (∃ l, s.cfg.timeoutPolls = some l ∧ l ≤ s.seq.polls + 1 ∧
      pollAgain s = abort .timeout { s with seq.polls := s.seq.polls + 1 }) := by
  unfold pollAgain
  split
  · exact .inl ⟨‹_›, rfl⟩
  · split
    · exact .inr (.inr ⟨_, ‹_›, ‹_›, rfl⟩)
    · exact .inr (.inl ⟨_, ‹_›, by omega, rfl⟩)

/-- A check that answers next: the status matched, or the READREG aborted. -/
theorem expect_next {st : StatusName} {k : State → Host.Outcome State Fault Refusal} (h : expect st k s = .next t) :
    (s.bus.status = s.cfg.statusCode.code st ∧ k s = .next t) ∨
    (s.bus.status ≠ s.cfg.statusCode.code st ∧ t = abort .protocolError s) := by
  unfold expect at h
  split at h
  · exact .inl ⟨‹_›, h⟩
  · cases h; exact .inr ⟨‹_›, rfl⟩

/-- `finish()` with and without the explicit STOP. -/
theorem finish_cases (s : State) :
    (s.cfg.stopExplicit = true ∧ finish s = setOk (submit .stop s)) ∨
    (s.cfg.stopExplicit = false ∧ finish s = setOk s) := by
  unfold finish
  cases h : s.cfg.stopExplicit <;> simp

/-- A data byte taken: its index is in the buffer, and the transaction ends or goes on. -/
theorem takeByte_next {last : Bool} (h : takeByte last s = .next t) :
    s.seq.idx.toNat < s.cfg.countMax ∧ t = if last then finish (storeByte s) else nextByte (storeByte s) := by
  unfold takeByte at h
  split at h
  · cases h; exact ⟨‹_›, rfl⟩
  · cases h

/-- What a poke of `TXN` finds in `DATA`: what is there, or a free value written into it. -/
theorem readyData_cases (cw : ControlWord) (s : State) :
    (¬(cw = .tx ∧ s.bus.done = false ∧ s.bus.dataPoked = false) ∧ readyData cw s = s) ∨
    ((cw = .tx ∧ s.bus.done = false ∧ s.bus.dataPoked = false) ∧
      readyData cw s = pokeData (Config.freeByte s.freeIdx) (drawn s)) := by
  unfold readyData
  split
  · exact .inr ⟨‹_›, rfl⟩
  · exact .inl ⟨‹_›, rfl⟩

/-- Of the state, the poke of a free value touches `DATA` and the counter of free values only. -/
theorem readyData_frame (cw : ControlWord) (s : State) :
    ∃ data poked idx, readyData cw s =
      { s with bus := { s.bus with data := data, dataPoked := poked }, freeIdx := idx } := by
  obtain ⟨-, h⟩ | ⟨-, h⟩ := readyData_cases cw s <;> exact ⟨_, _, _, h⟩

/-- A control word where SEQ does not await it: only while SEQ is idle, and it is a submit. -/
theorem pokeWord_next {cw : ControlWord} (h : pokeWord cw s = .next t) :
    s.seq.ph = .idle ∧ t = submit cw (readyData cw s) := by
  unfold pokeWord at h
  split at h
  · cases h; exact ⟨‹_›, rfl⟩
  · cases h

/-! ## The completion rules: the check passed and the success action was taken, or it failed and the READREG aborted -/

theorem completeStart_next (h : completeStart s = .next t) :
    (s.bus.status = s.cfg.statusCode.code .start ∧ t = setPhase .wSlaw (submitTx (addressByte s.seq.sa .write) s)) ∨
    (s.bus.status ≠ s.cfg.statusCode.code .start ∧ t = abort .protocolError s) := by
  obtain ⟨hs, h⟩ | h := expect_next h
  · cases h; exact .inl ⟨hs, rfl⟩
  · exact .inr h

theorem completeSlaw_next (h : completeSlaw s = .next t) :
    (s.bus.status = s.cfg.statusCode.code .slawAck ∧ t = setPhase .wReg (submitTx s.seq.ra s)) ∨
    (s.bus.status ≠ s.cfg.statusCode.code .slawAck ∧ t = abort .protocolError s) := by
  obtain ⟨hs, h⟩ | h := expect_next h
  · cases h; exact .inl ⟨hs, rfl⟩
  · exact .inr h

theorem completeReg_next (h : completeReg s = .next t) :
    (s.bus.status = s.cfg.statusCode.code .dataTxAck ∧ t = setPhase .wRstart (submit .rstart s)) ∨
    (s.bus.status ≠ s.cfg.statusCode.code .dataTxAck ∧ t = abort .protocolError s) := by
  obtain ⟨hs, h⟩ | h := expect_next h
  · cases h; exact .inl ⟨hs, rfl⟩
  · exact .inr h

theorem completeRstart_next (h : completeRstart s = .next t) :
    ((s.cfg.validateRstart = true → s.bus.status = s.cfg.statusCode.code .rstart) ∧ t = afterRstart s) ∨
    ((s.cfg.validateRstart = true ∧ s.bus.status ≠ s.cfg.statusCode.code .rstart) ∧ t = abort .protocolError s) := by
  unfold completeRstart at h
  split at h
  · obtain ⟨hs, h⟩ | ⟨hs, h⟩ := expect_next h
    · cases h; exact .inl ⟨fun _ => hs, rfl⟩
    · exact .inr ⟨⟨‹_›, hs⟩, h⟩
  · cases h; exact .inl ⟨fun hv => absurd hv ‹_›, rfl⟩

theorem completeSlar_next (h : completeSlar s = .next t) :
    (s.bus.status = s.cfg.statusCode.code .slarAck ∧ t = afterSlar s) ∨
    (s.bus.status ≠ s.cfg.statusCode.code .slarAck ∧ t = abort .protocolError s) := by
  obtain ⟨hs, h⟩ | h := expect_next h
  · cases h; exact .inl ⟨hs, rfl⟩
  · exact .inr h

theorem completeData_next {last : Bool} (h : completeData last s = .next t) :
    (s.bus.status = s.cfg.statusCode.code (rxExpected last) ∧ s.seq.idx.toNat < s.cfg.countMax ∧
      t = if last then finish (storeByte s) else nextByte (storeByte s)) ∨
    (s.bus.status ≠ s.cfg.statusCode.code (rxExpected last) ∧ t = abort .protocolError s) := by
  obtain ⟨hs, h⟩ | h := expect_next h
  · exact .inl ⟨hs, takeByte_next h⟩
  · exact .inr h

/-- A completion whose status is the expected one. -/
theorem completesWell_of {st : StatusName} (he : expectedStatus s.cfg s.seq = some st) (hd : s.bus.done = true)
    (hs : s.bus.status = s.cfg.statusCode.code st) : completesWell s := ⟨hd, by simp [passes, he, hs]⟩

/-- A completion whose status is another than the expected one. -/
theorem completesBadly_of {st : StatusName} (he : expectedStatus s.cfg s.seq = some st) (hd : s.bus.done = true)
    (hs : s.bus.status ≠ s.cfg.statusCode.code st) : completesBadly s := ⟨hd, by simp [passes, he, hs]⟩

/-- A completion of CW_RSTART passes unless it is validated and has another status. -/
theorem completesWell_rstart (hp : s.seq.ph = .wRstart) (hd : s.bus.done = true)
    (hs : s.cfg.validateRstart = true → s.bus.status = s.cfg.statusCode.code .rstart) : completesWell s :=
  ⟨hd, by by_cases hv : s.cfg.validateRstart <;> simp [passes, expectedStatus, hp, hv, hs]⟩

/-! ## What SEQ awaits -/

theorem awaited_eq_start {q : Seq} : awaited q = some .start ↔ q.ph = .wStart := by
  unfold awaited rxword
  cases q.ph <;> simp
  split <;> simp

theorem awaited_eq_rstart {q : Seq} : awaited q = some .rstart ↔ q.ph = .wRstart := by
  unfold awaited rxword
  cases q.ph <;> simp
  split <;> simp

theorem awaited_eq_rxAck {q : Seq} : awaited q = some .rxAck ↔ q.ph = .wData ∧ isLast q.idx q.cnt = false := by
  unfold awaited rxword
  cases q.ph <;> simp

theorem awaited_eq_rxNack {q : Seq} : awaited q = some .rxNack ↔ q.ph = .wData ∧ isLast q.idx q.cnt = true := by
  unfold awaited rxword
  cases q.ph <;> simp

theorem awaited_eq_none {q : Seq} : awaited q = none ↔ q.ph = .idle := by
  unfold awaited
  cases q.ph <;> simp

/-- Every control word's meaning that answers next is a poll, a completion rule's success, an abort, or the write of `TXN`. -/
inductive ControlStep (cw : ControlWord) (s : State) : State → Prop
  | poll (h : s.seq.ph ≠ .idle) (hd : s.bus.done = false) : ControlStep cw s (pollAgain s)
  | fail (h : s.seq.ph ≠ .idle) (hw : completesBadly s) : ControlStep cw s (abort .protocolError s)
  | poke (h : s.seq.ph = .idle) : ControlStep cw s (submit cw (readyData cw s))
  | slaw (h : s.seq.ph = .wStart) (hw : completesWell s) :
      ControlStep cw s (setPhase .wSlaw (submitTx (addressByte s.seq.sa .write) s))
  | reg (h : s.seq.ph = .wSlaw) (hw : completesWell s) : ControlStep cw s (setPhase .wReg (submitTx s.seq.ra s))
  | rstart (h : s.seq.ph = .wReg) (hw : completesWell s) : ControlStep cw s (setPhase .wRstart (submit .rstart s))
  | slar (h : s.seq.ph = .wRstart) (hw : completesWell s) : ControlStep cw s (afterRstart s)
  | data (h : s.seq.ph = .wSlar) (hw : completesWell s) : ControlStep cw s (afterSlar s)
  | byte (h : s.seq.ph = .wData) (hw : completesWell s) (hl : isLast s.seq.idx s.seq.cnt = false)
      (hi : s.seq.idx.toNat < s.cfg.countMax) : ControlStep cw s (nextByte (storeByte s))
  | done (h : s.seq.ph = .wData) (hw : completesWell s) (hl : isLast s.seq.idx s.seq.cnt = true)
      (hi : s.seq.idx.toNat < s.cfg.countMax) : ControlStep cw s (finish (storeByte s))

/-- The inversion of a control word's meaning. -/
theorem controlWord_next {cw : ControlWord} (h : exec cw.instr s = .next t) : ControlStep cw s t := by
  have poke {h : pokeWord cw s = .next t} : ControlStep cw s t := by
    obtain ⟨hp, rfl⟩ := pokeWord_next h; exact .poke hp
  cases cw with
  | start =>
    simp only [ControlWord.instr, exec, execCwStart] at h
    split at h
    · have hp : s.seq.ph = .wStart := awaited_eq_start.mp ‹_›
      have he : expectedStatus s.cfg s.seq = some .start := by simp [expectedStatus, hp]
      obtain ⟨hd, rfl⟩ | ⟨hd, h⟩ := awaitDone_next h
      · exact .poll (by simp [hp]) hd
      · obtain ⟨hs, rfl⟩ | ⟨hs, rfl⟩ := completeStart_next h
        · exact .slaw hp (completesWell_of he hd hs)
        · exact .fail (by simp [hp]) (completesBadly_of he hd hs)
    · exact poke (h := h)
  | rstart =>
    simp only [ControlWord.instr, exec, execCwRstart] at h
    split at h
    · have hp : s.seq.ph = .wRstart := awaited_eq_rstart.mp ‹_›
      obtain ⟨hd, rfl⟩ | ⟨hd, h⟩ := awaitDone_next h
      · exact .poll (by simp [hp]) hd
      · obtain ⟨hs, rfl⟩ | ⟨⟨hv, hs⟩, rfl⟩ := completeRstart_next h
        · exact .slar hp (completesWell_rstart hp hd hs)
        · exact .fail (by simp [hp]) (completesBadly_of (by simp [expectedStatus, hp, hv]) hd hs)
    · exact poke (h := h)
  | tx =>
    simp only [ControlWord.instr, exec, execCwTx] at h
    split at h
    · have hp : s.seq.ph = .wSlaw := ‹_›
      have he : expectedStatus s.cfg s.seq = some .slawAck := by simp [expectedStatus, hp]
      obtain ⟨hd, rfl⟩ | ⟨hd, h⟩ := awaitDone_next h
      · exact .poll (by simp [hp]) hd
      · obtain ⟨hs, rfl⟩ | ⟨hs, rfl⟩ := completeSlaw_next h
        · exact .reg hp (completesWell_of he hd hs)
        · exact .fail (by simp [hp]) (completesBadly_of he hd hs)
    · have hp : s.seq.ph = .wReg := ‹_›
      have he : expectedStatus s.cfg s.seq = some .dataTxAck := by simp [expectedStatus, hp]
      obtain ⟨hd, rfl⟩ | ⟨hd, h⟩ := awaitDone_next h
      · exact .poll (by simp [hp]) hd
      · obtain ⟨hs, rfl⟩ | ⟨hs, rfl⟩ := completeReg_next h
        · exact .rstart hp (completesWell_of he hd hs)
        · exact .fail (by simp [hp]) (completesBadly_of he hd hs)
    · have hp : s.seq.ph = .wSlar := ‹_›
      have he : expectedStatus s.cfg s.seq = some .slarAck := by simp [expectedStatus, hp]
      obtain ⟨hd, rfl⟩ | ⟨hd, h⟩ := awaitDone_next h
      · exact .poll (by simp [hp]) hd
      · obtain ⟨hs, rfl⟩ | ⟨hs, rfl⟩ := completeSlar_next h
        · exact .data hp (completesWell_of he hd hs)
        · exact .fail (by simp [hp]) (completesBadly_of he hd hs)
    all_goals exact poke (h := h)
  | rxAck =>
    simp only [ControlWord.instr, exec, execCwRxAck] at h
    split at h
    · obtain ⟨hp, hl⟩ := awaited_eq_rxAck.mp ‹_›
      have he : expectedStatus s.cfg s.seq = some (rxExpected false) := by simp [expectedStatus, hp, hl]
      obtain ⟨hd, rfl⟩ | ⟨hd, h⟩ := awaitDone_next h
      · exact .poll (by simp [hp]) hd
      · obtain ⟨hs, hi, rfl⟩ | ⟨hs, rfl⟩ := completeData_next h
        · exact .byte hp (completesWell_of he hd hs) hl hi
        · exact .fail (by simp [hp]) (completesBadly_of he hd hs)
    · exact poke (h := h)
  | rxNack =>
    simp only [ControlWord.instr, exec, execCwRxNack] at h
    split at h
    · obtain ⟨hp, hl⟩ := awaited_eq_rxNack.mp ‹_›
      have he : expectedStatus s.cfg s.seq = some (rxExpected true) := by simp [expectedStatus, hp, hl]
      obtain ⟨hd, rfl⟩ | ⟨hd, h⟩ := awaitDone_next h
      · exact .poll (by simp [hp]) hd
      · obtain ⟨hs, hi, rfl⟩ | ⟨hs, rfl⟩ := completeData_next h
        · exact .done hp (completesWell_of he hd hs) hl hi
        · exact .fail (by simp [hp]) (completesBadly_of he hd hs)
    · exact poke (h := h)
  | stop =>
    simp only [ControlWord.instr, exec, execCwStop] at h
    exact poke (h := h)

/-! ## CCH and the environment -/

/-- A step of CCH: nothing, one of several bytes pushed, or the last byte pushed. -/
theorem sendStep_cases (s : State) :
    sendStep s = s ∨
    (∃ b rest, s.cch.cph ≠ .idle ∧ s.cch.cq = b :: rest ∧ s.serial.txRoom = true ∧ rest ≠ [] ∧
      sendStep s = { pushByte b s with cch.cq := rest }) ∨
    (∃ b, s.cch.cph ≠ .idle ∧ s.cch.cq = [b] ∧ s.serial.txRoom = true ∧ sendStep s = endSend (pushByte b s)) := by
  unfold sendStep
  split
  · exact .inl rfl
  · split
    · exact .inl rfl
    · split
      · split
        · subst_vars; exact .inr (.inr ⟨_, ‹_›, ‹_›, ‹_›, rfl⟩)
        · exact .inr (.inl ⟨_, _, ‹_›, ‹_›, ‹_›, ‹_›, rfl⟩)
      · exact .inl rfl

/-- BUSIF's completion step: nothing pending and nothing changes, or the pending action completes. -/
theorem completeAction_cases (status data : Byte) (s : State) :
    (s.bus.pending = none ∧ completeAction status data s = s) ∨
    (∃ a, s.bus.pending = some a ∧ completeAction status data s =
      { s with
        bus := { s.bus with status := status, data := data, pending := none, done := true }
        evlog := s.evlog ++ [completionEvent a status data] }) := by
  unfold completeAction
  split
  · exact .inl ⟨‹_›, rfl⟩
  · exact .inr ⟨_, ‹_›, rfl⟩

/-! ## What the agents' moves can do -/

/-- An accepted host command (R94, R133, R134), or a pseudo-operation's expansion. -/
inductive CommandStep (s : State) : Instr → State → Prop
  | held {i : Instr} : CommandStep s i s
  | readreg {sa ra count : Byte} (hb : busy s = false) (hc : count ≠ 0) :
      CommandStep s (.readreg sa ra count) (acceptReadreg sa ra count s)
  | pollNothing {echo : Bool} (hb : busy s = false) (hq : s.serial.rxq = []) :
      CommandStep s (.pollchar echo) (pollNothing (beginCommand .pollchar s))
  | pollByte {echo : Bool} {b : Byte} {rest : List Byte} (hb : busy s = false) (hq : s.serial.rxq = b :: rest) :
      CommandStep s (.pollchar echo) (pollByte echo b rest (beginCommand .pollchar s))
  | writechar {b : Byte} (hb : busy s = false) :
      CommandStep s (.writechar b) (beginSend .write b [b] (beginCommand .writechar s))
  | expand {i : Instr} (hi : commandWord i = none) : CommandStep s i (expandInto i s)

/-- The inversion of `exec`: a host command's or pseudo-operation's step, or a control word's. -/
theorem exec_next {i : Instr} (h : exec i s = .next t) :
    CommandStep s i t ∨ ∃ cw, controlWord i = some cw ∧ ControlStep cw s t := by
  cases i with
  | readreg sa ra count =>
    simp only [exec, execReadreg, Host.Outcome.next.injEq] at h
    subst h
    split
    · exact .inl .held
    · rename_i hn
      simp only [countOk, Bool.or_eq_true, Bool.not_eq_true', not_or, bne_eq_false_iff_eq, Bool.not_eq_true] at hn
      exact .inl (.readreg hn.1 hn.2)
  | pollchar echo =>
    simp only [exec, execPollchar, Host.Outcome.next.injEq] at h
    subst h
    split
    · exact .inl .held
    · have hb : busy s = false := eq_false_of_ne_true ‹_›
      split
      · exact .inl (.pollNothing hb ‹_›)
      · exact .inl (.pollByte hb ‹_›)
  | writechar b =>
    simp only [exec, execWritechar, Host.Outcome.next.injEq] at h
    subst h
    split
    · exact .inl .held
    · exact .inl (.writechar (eq_false_of_ne_true ‹_›))
  | writestring text => simp only [exec, execWritestring, Host.Outcome.next.injEq] at h; subst h; exact .inl (.expand rfl)
  | writeline text => simp only [exec, execWriteline, Host.Outcome.next.injEq] at h; subst h; exact .inl (.expand rfl)
  | cwStart => exact .inr ⟨.start, rfl, controlWord_next h⟩
  | cwRstart => exact .inr ⟨.rstart, rfl, controlWord_next h⟩
  | cwTx => exact .inr ⟨.tx, rfl, controlWord_next h⟩
  | cwRxAck => exact .inr ⟨.rxAck, rfl, controlWord_next h⟩
  | cwRxNack => exact .inr ⟨.rxNack, rfl, controlWord_next h⟩
  | cwStop => exact .inr ⟨.stop, rfl, controlWord_next h⟩

/-- The host's step: it waits, it has nothing left, it presents a command, or its operation is executed or gone on with. -/
theorem hostMove_next (h : hostMove s = .next t) :
    (hostWaits s = true ∧ t = s) ∨
    (hostWaits s = false ∧ s.host.prog = [] ∧ t = hostGoesOn [] s) ∨
    (∃ i rest w, hostWaits s = false ∧ s.host.prog = .issue i :: rest ∧ commandWord i = some w ∧
      t = presentCommand w { hostGoesOn rest s with host := { s.host with prog := rest, awaiting := true } }) ∨
    (∃ i rest, hostWaits s = false ∧ s.host.prog = .issue i :: rest ∧ commandWord i = none ∧
      exec i (hostGoesOn rest s) = .next t) ∨
    (∃ op rest, hostWaits s = false ∧ s.host.prog = op :: rest ∧ (∀ i, op ≠ .issue i) ∧ menuResume op (hostGoesOn rest s) = .next t) := by
  unfold hostMove at h
  split at h
  · cases h; exact .inl ⟨‹_›, rfl⟩
  · have hw : hostWaits s = false := eq_false_of_ne_true ‹_›
    split at h
    · cases h; exact .inr (.inl ⟨hw, ‹_›, rfl⟩)
    · unfold hostIssue at h
      split at h
      · cases h; exact .inr (.inr (.inl ⟨_, _, _, hw, ‹_›, ‹_›, rfl⟩))
      · exact .inr (.inr (.inr (.inl ⟨_, _, hw, ‹_›, ‹_›, h⟩)))
    · rename_i hn hp; exact .inr (.inr (.inr (.inr ⟨_, _, hw, hp, fun i hi => hn i hi, h⟩)))

/-- The port's moves: nothing while it holds a command, otherwise the word is put there or taken off. -/
theorem presentMove_cases (w : CmdWord) (s : State) :
    (portHolds s = true ∧ presentMove w s = s) ∨ (portHolds s = false ∧ presentMove w s = presentCommand w s) := by
  unfold presentMove
  cases portHolds s <;> simp

theorem withdrawMove_cases (s : State) :
    (portHolds s = true ∧ withdrawMove s = s) ∨ (portHolds s = false ∧ withdrawMove s = withdrawCommand s) := by
  unfold withdrawMove
  cases portHolds s <;> simp

/-- The next move taken off the state. -/
theorem nextMove_cases (s : State) :
    (∃ m rest, s.script = m :: rest ∧ nextMove s = (m, { s with script := rest })) ∨
    (s.script = [] ∧ nextMove s = (Config.oracle s.freeIdx, { s with freeIdx := s.freeIdx + 1 })) := by
  unfold nextMove
  split
  · exact .inl ⟨_, _, ‹_›, rfl⟩
  · exact .inr ⟨‹_›, rfl⟩

end Sys2Proof.Laws
end

