-- ==== Sys2Proof/Laws/PerInstr.lean ====
section
/-! SUPPORT. Facts stated per instruction: every word an instruction encodes to lies under the match and mask of the row of
spec/opcode_table.json its instruction has. -/

namespace Sys2Proof.Laws

/-- The rows of spec/opcode_table.json with a word: width, match and mask. -/
def rowPattern : Instr → Option (Nat × Nat × Nat)
  | .readreg _ _ _ => some (32, 0x10000000, 0xFF000000)
  | .pollchar _ => some (32, 0x20000000, 0xFFFFFFFE)
  | .writechar _ => some (32, 0x30000000, 0xFFFFFF00)
  | .writestring _ => none
  | .writeline _ => none
  | .cwStart => some (8, 0x00, 0xFF)
  | .cwRstart => some (8, 0x01, 0xFF)
  | .cwTx => some (8, 0x02, 0xFF)
  | .cwRxAck => some (8, 0x03, 0xFF)
  | .cwRxNack => some (8, 0x04, 0xFF)
  | .cwStop => some (8, 0x05, 0xFF)

/-- A code's width and value. -/
def codeBits : Code → Nat × Nat
  | .command w => (32, w.toNat)
  | .control b => (8, b.toNat)

/-- A code has the width of a row and agrees with its match under its mask. -/
def codeFits (row : Nat × Nat × Nat) (c : Code) : Prop :=
  (codeBits c).1 = row.1 ∧ (codeBits c).2 &&& row.2.2 = row.2.1

/-- The instruction has a word exactly when its row has a pattern, and the word fits it. -/
def RowPattern.Statement (i : Instr) : Prop :=
  ∀ row ∈ rowPattern i, ∃ c ∈ codeOf .default i, codeFits row c

/-- Masking with the eight bits from 24 up. -/
theorem and_mask_top8 (x : BitVec 32) (h : x.extractLsb' 24 8 = 0x10) : x.toNat &&& 0xFF000000 = 0x10000000 := by
  have hx : x &&& 0xFF000000#32 = 0x10000000#32 := by
    ext i hi
    have hb : ∀ j : Nat, (x.extractLsb' 24 8).getLsbD j = (0x10#8).getLsbD j := by rw [h]; exact fun _ => rfl
    simp only [BitVec.getLsbD_extractLsb'] at hb
    have h0 := hb 0; have h1 := hb 1; have h2 := hb 2; have h3 := hb 3
    have h4 := hb 4; have h5 := hb 5; have h6 := hb 6; have h7 := hb 7
    interval_cases i <;> simp_all [BitVec.getLsbD_eq_getElem]
  simpa using congrArg BitVec.toNat hx

theorem RowPattern.readreg (sa ra count : Byte) : RowPattern.Statement (.readreg sa ra count) := by
  intro row hr
  cases hr
  refine ⟨_, rfl, rfl, and_mask_top8 _ (BitVec.eq_of_toNat_eq ?_)⟩
  rw [toNat_field, encodeReadreg_toNat]
  have := count.isLt; have := sa.isLt; have := ra.isLt
  change _ = (0x10 : Nat); omega

theorem RowPattern.pollchar (echo : Bool) : RowPattern.Statement (.pollchar echo) := by
  intro row hr
  cases hr
  exact ⟨_, rfl, rfl, by cases echo <;> rfl⟩

theorem RowPattern.writechar (byte : Byte) : RowPattern.Statement (.writechar byte) := by
  intro row hr
  cases hr
  refine ⟨_, rfl, rfl, ?_⟩
  revert byte
  decide

theorem RowPattern.writestring (text : List Byte) : RowPattern.Statement (.writestring text) := by
  intro row hr; cases hr

theorem RowPattern.writeline (text : List Byte) : RowPattern.Statement (.writeline text) := by
  intro row hr; cases hr

theorem RowPattern.cwStart : RowPattern.Statement .cwStart := by
  intro row hr; cases hr; exact ⟨_, rfl, rfl, rfl⟩

theorem RowPattern.cwRstart : RowPattern.Statement .cwRstart := by
  intro row hr; cases hr; exact ⟨_, rfl, rfl, rfl⟩

theorem RowPattern.cwTx : RowPattern.Statement .cwTx := by
  intro row hr; cases hr; exact ⟨_, rfl, rfl, rfl⟩

theorem RowPattern.cwRxAck : RowPattern.Statement .cwRxAck := by
  intro row hr; cases hr; exact ⟨_, rfl, rfl, rfl⟩

theorem RowPattern.cwRxNack : RowPattern.Statement .cwRxNack := by
  intro row hr; cases hr; exact ⟨_, rfl, rfl, rfl⟩

theorem RowPattern.cwStop : RowPattern.Statement .cwStop := by
  intro row hr; cases hr; exact ⟨_, rfl, rfl, rfl⟩

end Sys2Proof.Laws
end

