-- ==== Sys2Proof/Tests/Slice0.lean ====
section
/-! SUPPORT. Tests of the model against spec/95_test_vectors.md and the rules, and for every statement with hypotheses a state that meets them (named after the statement, one per clause). -/

namespace Sys2Proof.Tests

open Sys2Proof.Machine

/-! ## Small states -/

/-- The default configuration with every OPEN parameter set to a value. -/
def cfg : Params where
  saBits := 7
  raBits := 8
  dataBits := 8
  countMax := 255
  timeoutPolls := none
  validateRstart := false
  stopExplicit := false
  statusCode := .default
  cwCode := .default
  rxqDepth := some 4
  echoEol := [0x0D, 0x0A]
  baud := 9600
  sclHz := 100000
  tickHz := 1000
  maskConnected := false
  menuFromTick := false
  menuEcho := false
  surfaceErr := true
  ownWriteSeen := false
  quoteChar := 0x27

/-- The reset state under that configuration, with no byte in `RXQ`. -/
def base : State := { State.reset with cfg := cfg, serial := ⟨[], false⟩ }

/-- SEQ in a phase, with operands 0x68 and 0x11. -/
def seqAt (ph : Phase) (idx cnt : Byte) : Seq :=
  { Seq.reset with sa := 0x68, ra := 0x11, cnt := cnt, idx := idx, ph := ph }

/-- SEQ waits in a phase and BUSIF has completed with a status and a byte. -/
def completed (ph : Phase) (idx cnt status data : Byte) : State :=
  { base with
    seq := seqAt ph idx cnt
    port := { Port.reset with rop := some .readreg }
    bus := { Busif.reset with done := true, status := status, data := data } }

/-- SEQ waits in a phase and BUSIF has not completed. -/
def pending (ph : Phase) (idx cnt : Byte) : State :=
  { base with
    seq := seqAt ph idx cnt
    port := { Port.reset with rop := some .readreg }
    bus := { Busif.reset with pending := inFlight (seqAt ph idx cnt) } }

/-- The same with another configuration. -/
def under (c : Params) (s : State) : State := { s with cfg := c }

/-- An idle block with bytes in `RXQ` and room on the output side. -/
def input (q : List Byte) : State := { base with serial := ⟨q, true⟩ }

/-- CCH sends, with or without room. -/
def sending (p : CharPhase) (b : Byte) (q : List Byte) (room : Bool) : State :=
  { base with cch := { Cch.reset with cph := p, cb := b, cq := q }, serial := ⟨[], room⟩ }

/-- The menu in a state, its screen printed. -/
def menuAt (m : MenuState) : State :=
  { base with host := { HostSoftware.start with
    menu := { MenuContext.start with currentState := m, screenPrinted := true } } }

/-- A script put in a state. -/
def scripted (ms : List Move) (s : State) : State := { s with script := ms }

/-- A command word on the port. -/
def presented (w : CmdWord) (s : State) : State := { s with port := { s.port with cmdValid := true, cmd := w } }

/-- The outcome is a next state with a property. -/
def nextIs (o : Host.Outcome State Fault Refusal) (p : State → Bool) : Bool :=
  match o with
  | .next t => p t
  | .fault _ => false
  | .refused _ => false

/-- The outcome is this refusal. -/
def refusedWith (r : Refusal) (o : Host.Outcome State Fault Refusal) : Bool :=
  match o with
  | .next _ => false
  | .fault _ => false
  | .refused q => decide (q = r)

/-! ## Well-formedness, decoding and encoding -/

/-- R65: `count = 0` is the one operand value that is not legal. -/
theorem test_wf_zero_count : (Instr.readreg 0x68 0x11 0).wf = false := by decide

/-- V13: every other operand value is legal. -/
theorem test_wf_largest : (Instr.readreg 0x7F 0xFF 255).wf = true := by decide

/-- V11, the word bit by bit: `op` 0x1, zeros, count 1, sa 0x68, ra 0x11 (R61). -/
theorem test_decode_readreg :
    decodeTableWord 32 0b0001_0000_00000001_01101000_00010001 = some (.readreg 0x68 0x11 1) := by decide

/-- V12, V13, V14. -/
theorem test_decode_readreg_more :
    decodeTableWord 32 0x10036800 = some (.readreg 0x68 0x00 3) ∧
    decodeTableWord 32 0x10FF7FFF = some (.readreg 0x7F 0xFF 255) ∧
    decodeTableWord 32 0x1001A52A = some (.readreg 0xA5 0x2A 1) := by decide

/-- V15, V16, V18, V20, V21: reserved words. -/
theorem test_decode_reserved :
    [0x10006811, 0x11016811, 0x20000002, 0x20000100, 0x30000141, 0x00000000, 0x40000000, 0xFFFFFFFF].map
      (decodeTableWord 32) = List.replicate 8 none := by decide

/-- V17, the words bit by bit (R62). -/
theorem test_decode_pollchar :
    decodeTableWord 32 0b0010_0000_00000000_00000000_0000000_0 = some (.pollchar false) ∧
    decodeTableWord 32 0b0010_0000_00000000_00000000_0000000_1 = some (.pollchar true) := by decide

/-- V19, the word bit by bit (R63). -/
theorem test_decode_writechar :
    decodeTableWord 32 0b0011_0000_00000000_00000000_01000001 = some (.writechar 0x41) := by decide

/-- R70: the table of control words, bit by bit. -/
theorem test_decode_control :
    decodeTableWord 8 0b00000_000 = some .cwStart ∧ decodeTableWord 8 0b00000_001 = some .cwRstart ∧
    decodeTableWord 8 0b00000_010 = some .cwTx ∧ decodeTableWord 8 0b00000_011 = some .cwRxAck ∧
    decodeTableWord 8 0b00000_100 = some .cwRxNack ∧ decodeTableWord 8 0b00000_101 = some .cwStop := by decide

/-- R71: 6, 7 and a word with one of bits 7 to 3 set are reserved. -/
theorem test_decode_control_reserved : [6, 7, 0x08, 0x82].map (decodeTableWord 8) = List.replicate 4 none := by decide

/-- V45, V46, V47: the words a pseudo-operation issues. -/
theorem test_encode_pseudo :
    encode .default (.writestring [0x48, 0x69]) = [.command 0x30000048, .command 0x30000069] ∧
    encode .default (.writestring []) = [] ∧
    encode .default (.writeline [0x4F, 0x4B]) =
      [.command 0x3000004F, .command 0x3000004B, .command 0x3000000D, .command 0x3000000A] := by decide

/-! ## Operands and helpers -/

/-- V22 to V26 and V9. -/
theorem test_address_byte :
    [0x00, 0x68, 0x7F, 0x80, 0xA5, 0xFF].map (fun a => (addressByte a .write, addressByte a .read)) =
      [(0x00, 0x01), (0xD0, 0xD1), (0xFE, 0xFF), (0x00, 0x01), (0x4A, 0x4B), (0xFE, 0xFF)] := by decide

/-- V53, V54. -/
theorem test_hexToInt :
    [0x30, 0x39, 0x41, 0x46, 0x61, 0x66].map hexToInt = [0, 9, 10, 15, 10, 15] ∧
    [0x67, 0x47, 0x71, 0x20].map hexToInt = [-1, -1, -1, -1] := by decide

/-- V55, V56. -/
theorem test_intToHex : [0, 9, 10, 15].map intToHex = [0x30, 0x39, 0x41, 0x46] ∧ byteHex 0x2A = [0x32, 0x41] := by
  decide

/-! ## READREG and the control words, one step each -/

/-- V1, first step: START is submitted, TXN is 0x00. -/
theorem test_readreg_accepts : nextIs (exec (.readreg 0x68 0x11 1) base) (fun t =>
    t.seq.ph == .wStart && t.bus.txn == 0 && t.evlog == [.submit .start] && busy t && !t.port.resValid) = true := by
  decide

/-- V35: a command while busy changes nothing. -/
theorem test_readreg_busy : nextIs (exec (.readreg 1 2 3) (pending .wSlaw 0 1)) (fun t =>
    t == pending .wSlaw 0 1) = true := by decide

/-- V1: after 0x08 the address byte 0xD0 is transmitted. -/
theorem test_start_done : nextIs (exec .cwStart (completed .wStart 0 1 0x08 0)) (fun t =>
    t.seq.ph == .wSlaw && t.bus.data == 0xD0 && t.bus.txn == 2) = true := by decide

/-- V29, position 0: status 0x10 aborts. -/
theorem test_start_mismatch : nextIs (exec .cwStart (completed .wStart 0 1 0x10 0)) (fun t =>
    t.seq.ph == .idle && resWord t == some 0x1100 && t.evlog == []) = true := by decide

/-- V2: status 0x20 at step 2 aborts, and no STOP is submitted. -/
theorem test_tx_slaw_mismatch : nextIs (exec .cwTx (completed .wSlaw 0 1 0x20 0)) (fun t =>
    t.seq.res == .err .protocolError && resWord t == some 0x1100 && t.evlog == []) = true := by decide

/-- V1: after 0x28 the repeated START is asked for. -/
theorem test_tx_reg_done : nextIs (exec .cwTx (completed .wReg 0 1 0x28 0)) (fun t =>
    t.seq.ph == .wRstart && t.bus.txn == 1 && t.evlog == [.submit .rstart]) = true := by decide

/-- V3: an odd status after the repeated START goes on with 0xD1. -/
theorem test_rstart_unvalidated : nextIs (exec .cwRstart (completed .wRstart 0 1 0x38 0)) (fun t =>
    t.seq.ph == .wSlar && t.bus.data == 0xD1) = true := by decide

/-- V3 with VALIDATE_RSTART. -/
theorem test_rstart_validated :
    nextIs (exec .cwRstart (under { cfg with validateRstart := true } (completed .wRstart 0 1 0x38 0))) (fun t =>
      t.seq.res == .err .protocolError && t.evlog == []) = true := by decide

/-- V27: a byte with 0x50 is stored and the last receive is asked for with NACK. -/
theorem test_rxAck_done : nextIs (exec .cwRxAck (completed .wData 1 3 0x50 0x22)) (fun t =>
    Memory.read t.seq.rbuf 1 == some 0x22 && t.seq.idx == 2 && t.bus.txn == 4) = true := by decide

/-- V29, position 5: the NACK status where the ACK one is expected; the byte is not stored. -/
theorem test_rxAck_mismatch : nextIs (exec .cwRxAck (completed .wData 0 2 0x58 0x19)) (fun t =>
    resWord t == some 0x1100 && Memory.read t.seq.rbuf 0 == none) = true := by decide

/-- V1, last step: `Ok([0x19])`, `res = 0x1001`. -/
theorem test_rxNack_done : nextIs (exec .cwRxNack (completed .wData 0 1 0x58 0x19)) (fun t =>
    okBytes t == [0x19] && resWord t == some 0x1001 && !busy t) = true := by decide

/-- V32: with STOP_EXPLICIT the STOP is submitted and not waited for. -/
theorem test_rxNack_stop :
    nextIs (exec .cwRxNack (under { cfg with stopExplicit := true } (completed .wData 0 1 0x58 0x19))) (fun t =>
      t.evlog == [.submit .stop] && t.bus.txn == 5 && !busy t && okBytes t == [0x19]) = true := by decide

/-- V30 with TIMEOUT_POLLS = some 3: the third poll gives Timeout, `res = 0x1200`. -/
theorem test_timeout :
    nextIs (exec .cwTx (under { cfg with timeoutPolls := some 3 }
      { pending .wSlaw 0 1 with seq := { seqAt .wSlaw 0 1 with polls := 2 } })) (fun t =>
      resWord t == some 0x1200 && !busy t) = true := by decide

/-- V31: a completion at the last allowed poll is a completion. -/
theorem test_timeout_done :
    nextIs (exec .cwTx (under { cfg with timeoutPolls := some 3 }
      { completed .wSlaw 0 1 0x18 0 with seq := { seqAt .wSlaw 0 1 with polls := 2 } })) (fun t =>
      t.seq.ph == .wReg && t.bus.data == 0x11 && t.seq.polls == 0) = true := by decide

/-- R26, R30: CW_STOP written to TXN while SEQ is idle is pending, and DONE is cleared. -/
theorem test_stop_idle : nextIs (exec .cwStop base) (fun t =>
    t.bus.pending == some .stop && !t.bus.done && t.bus.txn == 5) = true := by decide

/-- R25: a poke of TXN while SEQ waits is outside the contract. -/
theorem test_stop_busy : refusedWith .pokeWhileBusy (exec .cwStop (pending .wSlaw 0 1)) = true := by decide

/-- V51: reset in a hang drops the READREG; BUSIF's pending action stays. -/
theorem test_reset_in_hang : nextIs (runMove .rst (pending .wSlaw 0 1)) (fun t =>
    t.seq.ph == .idle && t.seq.res == .none && cmdReady t && t.evlog == [] && t.bus.pending == some (.tx 0xD0)) = true := by
  decide

/-- R38 (93 U8): CW_TX written to TXN while DONE = 0 draws a value for DATA, unless DATA was poked. -/
theorem test_tx_idle :
    nextIs (exec .cwTx base) (fun t => t.freeIdx == 1 && t.bus.txn == 2) = true ∧
    nextIs (exec .cwTx (pokeData 0x5A base)) (fun t => t.freeIdx == 0 && t.bus.pending == some (.tx 0x5A)) = true := by
  decide

/-- R23, R65: the port holds a command, which no requester replaces; a reserved word may be withdrawn. -/
theorem test_port_holds :
    (presentMove 0x20000000 (presented 0x30000041 base)).port.cmd = 0x30000041 ∧
    (withdrawMove (presented 0x30000041 base)).port.cmdValid = true ∧
    (withdrawMove (presented 0x00000000 base)).port.cmdValid = false := by decide

/-- R30, R106: BUSIF clears a pending CW_STOP without setting DONE. -/
theorem test_drop_stop : nextIs (runMove .dropStop { base with bus := { Busif.reset with pending := some .stop } })
    (fun t => t.bus.pending == none && !t.bus.done) = true := by decide

/-! ## POLLCHAR, WRITECHAR and the pseudo-operations -/

/-- V38: the byte is taken, `res = 0x2172`, nothing is pushed. -/
theorem test_pollchar : nextIs (exec (.pollchar false) (input [0x72])) (fun t =>
    resWord t == some 0x2172 && t.serial.rxq == [] && txlog t == []) = true := by decide

/-- V42: with echo the byte is popped and the byte and CR LF are to be sent. -/
theorem test_pollchar_echo : nextIs (exec (.pollchar true) (input [0x61])) (fun t =>
    t.cch.cph == .echo && t.cch.cq == [0x61, 0x0D, 0x0A] && t.serial.rxq == []) = true := by decide

/-- V44: WRITECHAR is busy until the byte is pushed. -/
theorem test_writechar : nextIs (exec (.writechar 0x41) base) (fun t => busy t && t.cch.cq == [0x41]) = true := by decide

/-- V50: without room nothing happens; with room 0x41 is pushed and `res = 0x3000`. -/
theorem test_send_last :
    nextIs (runMove .cch (sending .write 0x41 [0x41] false)) (fun t => t == sending .write 0x41 [0x41] false) = true ∧
    nextIs (runMove .cch { sending .write 0x41 [0x41] true with port := { Port.reset with rop := some .writechar } })
      (fun t => txlog t == [0x41] && resWord t == some 0x3000 && !busy t) = true := by decide

/-- V45: the WRITECHARs of "Hi". -/
theorem test_writestring : nextIs (exec (.writestring [0x48, 0x69]) base) (fun t =>
    t.host.prog == [.issue (.writechar 0x48), .issue (.writechar 0x69)]) = true := by decide

/-- V48: a line without text is CR and LF. -/
theorem test_writeline : nextIs (exec (.writeline []) base) (fun t =>
    t.host.prog == [.issue (.writechar 0x0D), .issue (.writechar 0x0A)]) = true := by decide

/-- R140 (93 U7): a byte that arrives with `RXQ` full is lost. -/
theorem test_arrive_full : nextIs (runMove (.arrive 9) (input [1, 2, 3, 4])) (fun t => t.serial.rxq == [1, 2, 3, 4]) = true := by
  decide

/-! ## The host software -/

/-- V7: an unknown key in MAIN prints its message, stays and clears the printed flag. -/
theorem test_unknown_key : nextIs (menuKey 0x7A (menuAt .main)) (fun t =>
    t.host.menu.currentState == .main && !t.host.menu.screenPrinted &&
    t.host.prog == [.issue (.writeline [0x55, 0x6E, 0x6B, 0x6E, 0x6F, 0x77, 0x6E, 0x20, 0x6F, 0x70, 0x74, 0x69,
      0x6F, 0x6E, 0x20, 0x27, 0x7A, 0x27])]) = true := by decide

/-- V8: all-ones, then `a`: zero; `a` again: all-ones. -/
theorem test_led_key :
    nextIs (menuKey 0x61 { menuAt .ledToggle with latch := 0xFF }) (fun t => t.latch == 0x00) = true ∧
    nextIs (menuKey 0x61 { menuAt .ledToggle with latch := 0x00 }) (fun t => t.latch == 0xFF) = true := by decide

/-- V10: `2`, `a` in BUS_SET_REGISTER give 0x2A and BUS_MENU. -/
theorem test_register_entry :
    (entryKey 0x61 (entryKey 0x32 (menuAt .busSetRegister))).host.menu.addr.registerAddress = 0x2A ∧
    (entryKey 0x61 (entryKey 0x32 (menuAt .busSetRegister))).host.menu.currentState = .busMenu := by decide

/-- V57: `A`, then `x`: "Invalid input", the entry back to its start, the state kept. -/
theorem test_invalid_input :
    (entryKey 0x78 (entryKey 0x41 (menuAt .busSetSlave))).host.menu = (menuAt .busSetSlave).host.menu ∧
    (entryKey 0x78 (entryKey 0x41 (menuAt .busSetSlave))).host.prog =
      [.issue (.writeline [0x49, 0x6E, 0x76, 0x61, 0x6C, 0x69, 0x64, 0x20, 0x69, 0x6E, 0x70, 0x75, 0x74])] := by decide

/-- R155: an invocation polls first; while it has not returned no other begins (R135, R208). -/
theorem test_invocation_polls_first :
    (menuInvoke (menuAt .main)).host.prog = [.issue (.pollchar false), .dispatch] ∧
    menuInvoke (menuInvoke (menuAt .main)) = menuInvoke (menuAt .main) := by decide

/-- R150: dispatch queues the text of a screen that is due, then the mark that it was emitted, then the key. -/
theorem test_dispatch_order :
    (menuDispatch { enter .exit base with cch := { Cch.reset with cres := some ⟨true, 0x61⟩ } }).host.prog =
      [.printed, .key 0x61] ∧
    (menuDispatch (enter .exit base)).host.menu.screenPrinted = false := by decide

/-- V58, the thousandth tick. -/
theorem test_tick_1000 :
    (schedulerTick { base with host := { HostSoftware.start with elapsed := 999 } }).latch = 0xFF ∧
    (schedulerTick { base with host := { HostSoftware.start with elapsed := 999 } }).host.nextPattern = 0x00 := by decide

/-- V59: a latch changed from outside restarts the count. -/
theorem test_tick_resync :
    (schedulerTick { base with latch := 0xFF, host := { HostSoftware.start with elapsed := 400 } }).host.elapsed = 0 ∧
    (schedulerTick { base with latch := 0xFF, host := { HostSoftware.start with elapsed := 400 } }).host.lastSeen = 0xFF ∧
    (schedulerTick { base with latch := 0xFF, host := { HostSoftware.start with elapsed := 400 } }).host.nextPattern = 0x00 := by
  decide

/-! ## The step -/

/-- A placed command word is accepted by the very next step from reset. -/
theorem test_fetch_command : nextIs (step (State.reset.withFetchWord 32 0x10016811)) (fun t =>
    t.seq.ph == .wStart && t.seq.sa == 0x68) = true := by decide

/-- A placed control word is written to TXN by the very next step from reset. -/
theorem test_fetch_control : nextIs (step (State.reset.withFetchWord 8 3)) (fun t =>
    t.bus.txn == 3 && t.bus.pending == some .rxAck) = true := by decide

/-! ## Witnesses: encodings and operands -/

theorem witness_EncodeThenDecodeGivesInstruction :
    CwCodes.default.values.Nodup ∧ (Instr.readreg 0x7F 0xFF 255).wf = true ∧ (Instr.readreg 0 0 1).wf = true := by decide

theorem witness_DecodeControlAcceptsExactlyCodes : (CwCodes.values ⟨9, 8, 7, 255, 0, 1⟩).Nodup := by decide

theorem witness_ReservedWordRefusedWithoutEffect :
    decodeCommand (presented 0x11016811 base).port.cmd = .error .zeroField ∧
    decodeCommand (presented 0x00000000 base).port.cmd = .error .op ∧
    decodeCommand (presented 0x40000000 base).port.cmd = .error .op ∧
    decodeCommand (presented 0xF0000000 base).port.cmd = .error .op ∧
    decodeCommand (presented 0x10006811 base).port.cmd = .error .zeroCount ∧
    decodeCommand (presented 0x20000002 base).port.cmd = .error .pollField ∧
    decodeCommand (presented 0x20800000 base).port.cmd = .error .pollField ∧
    decodeCommand (presented 0x30000100 base).port.cmd = .error .writeField ∧
    decodeCommand (presented 0x30800000 base).port.cmd = .error .writeField :=
  ⟨rfl, rfl, rfl, rfl, rfl, rfl, rfl, rfl, rfl⟩

theorem witness_ReceiveWordNacksOnlyLastByte :
    (0 : Byte) < 1 ∧ rxword 0 1 = .rxNack ∧ (0 : Byte) < 2 ∧ rxword 0 2 = .rxAck ∧
    (253 : Byte) < 255 ∧ rxword 253 255 = .rxAck ∧ (254 : Byte) < 255 ∧ rxword 254 255 = .rxNack := by decide

/-! ## Witnesses: the wait, the abort and the result word -/

theorem witness_UnboundedWaitChangesNothing :
    (pending .wData 254 255).seq.ph ≠ .idle ∧ (pending .wData 254 255).bus.done = false ∧
    (pending .wData 254 255).cfg.timeoutPolls = none := by decide

/-- The bound 1, the smallest, times out at the first poll; under the bound 2 the first poll is counted. -/
theorem witness_BoundedWaitCountsThenTimesOut :
    (under { cfg with timeoutPolls := some 1 } (pending .wStart 0 1)).seq.ph ≠ .idle ∧
    (under { cfg with timeoutPolls := some 1 } (pending .wStart 0 1)).bus.done = false ∧
    (under { cfg with timeoutPolls := some 1 } (pending .wStart 0 1)).cfg.timeoutPolls = some 1 ∧
    ¬ (pending .wStart 0 1).seq.polls + 1 < 1 ∧ (pending .wStart 0 1).seq.polls + 1 < 2 ∧
    (under { cfg with timeoutPolls := some 2 } (pending .wStart 0 1)).cfg.timeoutPolls = some 2 := by decide

theorem witness_AbortShowsErrorResult :
    (pending .wReg 0 1).cch.cph = .idle ∧ (pending .wReg 0 1).port.rop = some .readreg := by decide

theorem witness_ResultWordFormat_none : (pending .wReg 0 1).port.resValid = false := by decide

theorem witness_ResultWordFormat_readreg :
    ∃ s : State, s.port.resValid = true ∧ s.port.rop = some .readreg ∧ s.seq.res = .ok ∧ s.seq.cnt = 255 :=
  ⟨{ base with seq := { seqAt .idle 254 255 with res := .ok }, port := ⟨false, 0, true, some .readreg, 0⟩ },
    rfl, rfl, rfl, rfl⟩

theorem witness_ResultWordFormat_error (r : Reason) :
    ∃ s : State, s.port.resValid = true ∧ s.port.rop = some .readreg ∧ s.seq.res = .err r :=
  ⟨{ base with seq := { seqAt .idle 0 1 with res := .err r }, port := ⟨false, 0, true, some .readreg, 0⟩ }, rfl, rfl, rfl⟩

theorem witness_ResultWordFormat_pollchar (success : Bool) :
    ∃ s : State, s.port.resValid = true ∧ s.port.rop = some .pollchar ∧ s.cch.cres = some ⟨success, 0xFF⟩ :=
  ⟨{ base with cch := { Cch.reset with cres := some ⟨success, 0xFF⟩ }, port := ⟨false, 0, true, some .pollchar, 0⟩ },
    rfl, rfl, rfl⟩

/-- Index 0 of 1 and 254 of 255 after `Ok`; the index equal to the count; another result than `Ok`. -/
theorem witness_ResultWordFormat_rbuf :
    ({ base with seq := { seqAt .idle 0 1 with res := .ok } } : State).seq.res = .ok ∧
    base.port.rbufIdx.toNat < (seqAt .idle 0 1).cnt.toNat ∧ (254 : Byte).toNat < (seqAt .idle 254 255).cnt.toNat ∧
    (seqAt .idle 0 0).cnt.toNat ≤ base.port.rbufIdx.toNat ∧ (seqAt .idle 0 255).cnt.toNat ≤ (255 : Byte).toNat ∧
    base.seq.res ≠ .ok := by decide

theorem witness_ResultWordFormat_writechar : ∃ s : State, s.port.resValid = true ∧ s.port.rop = some .writechar :=
  ⟨{ base with port := ⟨false, 0, true, some .writechar, 0⟩ }, rfl, rfl⟩

/-! ## Witnesses: READREG and the control words -/

theorem witness_ReadregAcceptance : busy base = false ∧ (1 : Byte) ≠ 0 ∧ (255 : Byte) ≠ 0 := by decide

theorem witness_BusyBlockIgnoresCommands :
    busy (pending .wStart 0 1) = true ∧ busy (sending .echo 1 [1] true) = true := by decide

theorem witness_StartCompletes :
    (completed .wStart 0 1 0x08 0).seq.ph = .wStart ∧ (completed .wStart 0 1 0x08 0).bus.done = true ∧
    (completed .wStart 0 1 0x08 0).bus.status = cfg.statusCode.start ∧
    (completed .wStart 0 1 0x09 0).bus.status ≠ cfg.statusCode.start := by decide

theorem witness_WriteAddressCompletes :
    (completed .wSlaw 0 1 0x18 0).seq.ph = .wSlaw ∧ (completed .wSlaw 0 1 0x18 0).bus.done = true ∧
    (completed .wSlaw 0 1 0x18 0).bus.status = cfg.statusCode.slawAck ∧
    (completed .wSlaw 0 1 0x20 0).bus.status ≠ cfg.statusCode.slawAck := by decide

theorem witness_RegisterAddressCompletes :
    (completed .wReg 0 1 0x28 0).seq.ph = .wReg ∧ (completed .wReg 0 1 0x28 0).bus.done = true ∧
    (completed .wReg 0 1 0x28 0).bus.status = cfg.statusCode.dataTxAck ∧
    (completed .wReg 0 1 0x30 0).bus.status ≠ cfg.statusCode.dataTxAck := by decide

/-- Unvalidated with any status; validated with the status 0x10, and with another. -/
theorem witness_RepeatedStartCompletes :
    (completed .wRstart 0 1 0x38 0).seq.ph = .wRstart ∧ (completed .wRstart 0 1 0x38 0).bus.done = true ∧
    (completed .wRstart 0 1 0x38 0).cfg.validateRstart = false ∧
    (completed .wRstart 0 1 0x10 0).bus.status = cfg.statusCode.rstart ∧
    (under { cfg with validateRstart := true } (completed .wRstart 0 1 0x38 0)).cfg.validateRstart = true ∧
    (completed .wRstart 0 1 0x38 0).bus.status ≠ cfg.statusCode.rstart := by decide

/-- Counts 1, 2 and 255, and a mismatch. -/
theorem witness_ReadAddressCompletes :
    (completed .wSlar 0 1 0x40 0).seq.ph = .wSlar ∧ (completed .wSlar 0 1 0x40 0).bus.done = true ∧
    (completed .wSlar 0 1 0x40 0).bus.status = cfg.statusCode.slarAck ∧ (completed .wSlar 0 1 0x40 0).seq.cnt = 1 ∧
    (completed .wSlar 0 2 0x40 0).seq.cnt ≠ 1 ∧ (completed .wSlar 0 255 0x40 0).seq.cnt ≠ 1 ∧
    (completed .wSlar 0 1 0x48 0).bus.status ≠ cfg.statusCode.slarAck := by decide

/-- Index 0 of 2 and index 253 of 255. -/
theorem witness_DataByteCompletes :
    (completed .wData 0 2 0x50 9).seq.ph = .wData ∧ (completed .wData 0 2 0x50 9).bus.done = true ∧
    (completed .wData 0 2 0x50 9).seq.idx.toNat + 1 < (completed .wData 0 2 0x50 9).seq.cnt.toNat ∧
    (completed .wData 253 255 0x50 9).seq.idx.toNat + 1 < (completed .wData 253 255 0x50 9).seq.cnt.toNat ∧
    (completed .wData 253 255 0x50 9).seq.idx.toNat < cfg.countMax ∧
    (completed .wData 0 2 0x50 9).bus.status = cfg.statusCode.dataRxAck ∧
    (completed .wData 0 2 0x58 9).bus.status ≠ cfg.statusCode.dataRxAck := by decide

/-- Index 0 of 1 and index 254 of 255, with and without an explicit STOP. -/
theorem witness_LastDataByteFinishes :
    (completed .wData 0 1 0x58 9).seq.ph = .wData ∧ (completed .wData 0 1 0x58 9).bus.done = true ∧
    (completed .wData 0 1 0x58 9).seq.idx.toNat + 1 = (completed .wData 0 1 0x58 9).seq.cnt.toNat ∧
    (completed .wData 254 255 0x58 9).seq.idx.toNat + 1 = (completed .wData 254 255 0x58 9).seq.cnt.toNat ∧
    (completed .wData 254 255 0x58 9).seq.idx.toNat < cfg.countMax ∧
    (completed .wData 0 1 0x58 9).bus.status = cfg.statusCode.dataRxNack ∧
    (completed .wData 0 1 0x58 9).cfg.stopExplicit = false ∧
    (under { cfg with stopExplicit := true } (completed .wData 0 1 0x58 9)).cfg.stopExplicit = true ∧
    (completed .wData 0 1 0x50 9).bus.status ≠ cfg.statusCode.dataRxNack := by decide

/-- Another word than CW_TX; CW_TX with `DONE = 1`, with a poked byte, and with neither. -/
theorem witness_IdleControlWordIsSubmit :
    base.seq.ph = .idle ∧ ControlWord.stop ≠ .tx ∧ (completed .idle 0 0 0 0).bus.done = true ∧
    (pokeData 5 base).bus.dataPoked = true ∧ base.bus.done = false ∧ base.bus.dataPoked = false := by decide

theorem witness_ForeignControlWordRefused :
    (pending .wStart 0 1).seq.ph ≠ .idle ∧ awaited (pending .wStart 0 1).seq ≠ some .tx ∧
    (pending .wData 254 255).seq.ph ≠ .idle ∧ awaited (pending .wData 254 255).seq ≠ some .rxAck := by decide

theorem witness_ControlWordFrame :
    (∃ t, exec ControlWord.rxAck.instr (completed .wData 0 2 0x50 9) = .next t) ∧
    (∃ t, exec ControlWord.stop.instr base = .next t) ∧ (completed .wData 0 2 0x50 9).seq.ph ≠ .idle ∧ (1 : Nat) ≠ (completed .wData 0 2 0x50 9).seq.idx.toNat :=
  ⟨⟨_, rfl⟩, ⟨_, rfl⟩, by decide, by decide⟩

theorem witness_HostCommandFrame :
    (∃ t, exec (.readreg 1 2 3) base = .next t) ∧ (∃ t, exec (.pollchar true) (input [0x61]) = .next t) ∧
    (∃ t, exec (.pollchar false) base = .next t) ∧ (∃ t, exec (.writechar 7) base = .next t) :=
  ⟨⟨_, rfl⟩, ⟨_, rfl⟩, ⟨_, rfl⟩, ⟨_, rfl⟩⟩

/-! ## Witnesses: POLLCHAR, WRITECHAR and the pseudo-operations -/

theorem witness_PollcharWithoutByte : busy base = false ∧ base.serial.rxq = [] := by decide

theorem witness_PollcharTakesOldestByte :
    busy (input [0x72, 0x64]) = false ∧ (input [0x72, 0x64]).serial.rxq = 0x72 :: [0x64] := by decide

theorem witness_PollcharWithEchoStartsSending :
    busy (input [0x00]) = false ∧ (input [0x00]).serial.rxq = 0x00 :: [] := by decide

theorem witness_WritecharAcceptance : busy (input [0x72]) = false := by decide

/-- No room; room and more to send; the last byte of an echo; the byte of a WRITECHAR. -/
theorem witness_SendStepWaitsOrPushes :
    (sending .echo 9 [9, 0x0D] false).cch.cph ≠ .idle ∧ (sending .echo 9 [9, 0x0D] false).cch.cq = 9 :: [0x0D] ∧
    (sending .echo 9 [9, 0x0D] false).serial.txRoom = false ∧ (sending .echo 9 [9, 0x0D] true).serial.txRoom = true ∧
    ([0x0D] : List Byte) ≠ [] ∧ (sending .echo 9 [0x0A] true).cch.cq = 0x0A :: [] ∧
    (sending .echo 9 [0x0A] true).cch.cph = .echo ∧ (sending .write 9 [9] true).cch.cq = 9 :: [] ∧
    (sending .write 9 [9] true).cch.cph = .write := by decide

/-! ## Witnesses: the step -/

theorem witness_StepRunsFetchedInstruction_accept :
    (scripted [.accept] (presented 0x30000041 base)).script = .accept :: [] ∧
    (scripted [.accept] (presented 0x30000041 base)).port.cmdValid = true ∧
    busy (scripted [.accept] (presented 0x30000041 base)) = false ∧
    decodeCommand (scripted [.accept] (presented 0x30000041 base)).port.cmd = .ok (.writechar 0x41) :=
  ⟨rfl, rfl, rfl, rfl⟩

theorem witness_StepRunsFetchedInstruction_poke :
    (scripted [.pokeTxn 5, .seq] base).script = .pokeTxn 5 :: [.seq] ∧ base.seq.ph = .idle ∧
    decodeControl base.cfg.cwCode 5 = .ok .stop := ⟨rfl, rfl, rfl⟩

theorem witness_StepRunsFetchedInstruction_seq :
    (scripted [.seq] (completed .wData 254 255 0x58 9)).script = .seq :: [] ∧
    awaited (scripted [.seq] (completed .wData 254 255 0x58 9)).seq = some .rxNack := by decide

theorem witness_StepRunsFetchedInstruction_host :
    ∃ s : State, s.script = .host :: [] ∧ hostWaits s = false ∧
      s.host.prog = .issue (.writeline [0x41]) :: [] ∧ commandWord (.writeline [0x41]) = none :=
  ⟨scripted [.host] { base with host := { HostSoftware.start with prog := [.issue (.writeline [0x41])] } },
    rfl, rfl, rfl, rfl⟩

theorem witness_PlacedWordRunsNext :
    decodeTableWord 32 0x20000001 = some (.pollchar true) ∧ busy base = false ∧
    decodeTableWord 8 5 = some .cwStop ∧ base.seq.ph = .idle ∧ base.cfg.cwCode = .default := by decide

theorem witness_BusifCompletion :
    base.bus.pending = none ∧ (pending .wData 0 1).bus.pending = some .rxNack ∧
    (pending .wData 0 2).bus.pending = some .rxAck ∧
    ({ base with bus := { Busif.reset with pending := some .stop } } : State).bus.pending = some .stop ∧
    base.bus.pending ≠ some .stop ∧ (pending .wStart 0 1).bus.pending = some .start ∧
    Action.start ≠ .rxAck ∧ Action.start ≠ .rxNack := by decide

/-! ## Witnesses: invariants -/

/-- The second byte of two is received while the first is stored. -/
def reading : State :=
  scripted [.complete 0x58 0x22, .seq]
    { pending .wData 1 2 with seq := { seqAt .wData 1 2 with rbuf := [(0, 0x11)] } }

/-- That state meets the invariant. -/
theorem reading_inv : State.Inv reading where
  params := by decide
  rbuf := by decide
  exclusive := .inr rfl
  waiting _ := ⟨by decide, rfl, rfl, .inl ⟨rfl, rfl⟩, fun _ h => nomatch h⟩
  index _ := ⟨by decide, by unfold filledBelow; decide⟩
  result h := nomatch h
  queue := rfl
  rxq := by decide
  entry := ⟨fun h => (nomatch h), rfl, fun _ => rfl⟩
  stopped h := nomatch h

/-- A WRITECHAR waits while the menu holds one nibble, which also meets the invariant. -/
theorem writing_inv : State.Inv { sending .write 7 [7] false with
    host := { (menuAt .busSetSlave).host with
      menu := { (menuAt .busSetSlave).host.menu with entry := ⟨true, 0xA0⟩ } } } where
  params := by decide
  rbuf := rfl
  exclusive := .inl rfl
  waiting h := absurd rfl h
  index h := nomatch h
  result h := nomatch h
  queue := ⟨rfl, rfl⟩
  rxq := by decide
  entry := ⟨fun _ => .inl rfl, rfl, fun h => nomatch h⟩
  stopped h := nomatch h

theorem witness_StepKeepsInvariant : ∃ t, State.Inv reading ∧ step reading = .next t := ⟨_, reading_inv, rfl⟩

theorem witness_InvariantExcludesFaults : State.Inv reading := reading_inv

/-- A step that stays, the acceptance, a step to the next phase, one to the next data byte, and the four ways out. -/
theorem witness_PhaseMovesAlongTable :
    (∃ t, step reading = .next t) ∧
    nextIs (step (scripted [.accept] (presented 0x10016811 base))) (fun t => t.seq.ph == .wStart) = true ∧
    nextIs (step (scripted [.seq] (completed .wStart 0 1 0x08 0))) (fun t => t.seq.ph == .wSlaw) = true ∧
    nextIs (step (scripted [.seq] (completed .wData 0 2 0x50 9))) (fun t => t.seq.ph == .wData && t.seq.idx == 1) = true ∧
    nextIs (step (scripted [.seq] (completed .wData 0 1 0x58 9))) (fun t => t.seq.ph == .idle) = true ∧
    nextIs (step (scripted [.seq] (completed .wReg 0 1 0x30 9))) (fun t => t.seq.ph == .idle) = true ∧
    nextIs (step (scripted [.seq] (under { cfg with timeoutPolls := some 1 } (pending .wReg 0 1))))
      (fun t => t.seq.ph == .idle) = true ∧
    nextIs (step (scripted [.rst] (pending .wReg 0 1))) (fun t => t.seq.ph == .idle) = true :=
  ⟨⟨_, rfl⟩, by decide, by decide, by decide, by decide, by decide, by decide, by decide⟩

theorem witness_EventLogGrowsByAtMostOne :
    (∃ t, step (scripted [.accept] base) = .next t) ∧ (∃ t, step reading = .next t) := ⟨⟨_, rfl⟩, ⟨_, rfl⟩⟩

theorem witness_InputDeliveredInArrivalOrder :
    (∃ t, step (scripted [.arrive 5] (input [4])) = .next t) ∧
    (∃ t, step (scripted [.accept] (presented 0x20000000 (input [4]))) = .next t) := ⟨⟨_, rfl⟩, ⟨_, rfl⟩⟩

theorem witness_ConfigurationNeverChanges : ∃ t, step (scripted [.tick] base) = .next t := ⟨_, rfl⟩

theorem witness_BlockIgnoresLatch :
    (∃ t, runMove .accept (presented 0x20000000 (input [4])) = .next t) ∧ (∃ t, runMove .seq reading = .next t) ∧
    (∃ t, runMove .cch (sending .write 7 [7] true) = .next t) ∧ (∃ t, runMove .rst reading = .next t) :=
  ⟨⟨_, rfl⟩, ⟨_, rfl⟩, ⟨_, rfl⟩, ⟨_, rfl⟩⟩

theorem witness_StatusAndDataUnreadBeforeDone :
    reading.seq.ph ≠ .idle ∧ reading.bus.done = false ∧ ∃ t, seqMove reading = .next t := ⟨by decide, rfl, _, rfl⟩

/-! ## Witnesses: whole operations -/

/-- Without a bound V2's script; with the bound 2 a script without an answer. -/
theorem witness_ReadregRefinesScriptFunction :
    (∃ s : State, s.cfg.wf = true ∧ busy s = false ∧ s.port.cmdValid = true ∧ s.port.cmd = encodeReadreg 0x68 0x11 1 ∧
      (1 : Byte) ≠ 0 ∧ [((0x08 : Byte), (0 : Byte)), (0x20, 0)].length ≤ 5 + (1 : Byte).toNat ∧
      s.script = .accept :: (scriptMoves [(0x08, 0), (0x20, 0)] ++ timeoutMoves s.cfg ++ [.rst])) ∧
    (∃ s : State, s.cfg.wf = true ∧ busy s = false ∧ s.port.cmdValid = true ∧ s.port.cmd = encodeReadreg 0x68 0x11 255 ∧
      (255 : Byte) ≠ 0 ∧ s.script = .accept :: (scriptMoves [] ++ timeoutMoves s.cfg ++ []) ∧
      s.cfg.timeoutPolls = some 2) :=
  ⟨⟨scripted [.accept, .complete 0x08 0, .seq, .complete 0x20 0, .seq, .rst] (presented 0x10016811 base),
      by decide, rfl, rfl, rfl, by decide, by decide, rfl⟩,
    ⟨scripted [.accept, .seq, .seq] (presented 0x10FF6811 (under { cfg with timeoutPolls := some 2 } base)),
      by decide, rfl, rfl, rfl, by decide, rfl, rfl⟩⟩

/-- V1's script ends in `Ok([0x19])`, V2's in `Err(ProtocolError)`, and under a bound a script that ends too soon in
`Err(Timeout)`. -/
theorem witness_ScriptedReadregTrace :
    (1 : Nat) ≤ 1 ∧
    (runReadreg cfg 0x68 0x11 1 [(0x08, 0), (0x18, 0), (0x28, 0), (0x10, 0), (0x40, 0), (0x58, 0x19)]).1 = .ok [0x19] ∧
    (runReadreg cfg 0x68 0x11 1 [(0x08, 0), (0x20, 0)]).1 = .err .protocolError ∧
    runReadreg { cfg with timeoutPolls := some 3 } 0x68 0x11 1 [(0x08, 0)] =
      (.err .timeout, [.submit .start, .complete 0x08, .submit (.tx 0xD0)]) := by decide

/-- V3's odd status unvalidated; validated with the status 0x10. -/
theorem witness_HealthyReadregWire :
    cfg.stopExplicit = false ∧ (cfg.validateRstart = true → (0x38 : Byte) = cfg.statusCode.rstart) ∧
    (({ cfg with validateRstart := true } : Params).validateRstart = true → (0x10 : Byte) = cfg.statusCode.rstart) := by
  decide

theorem witness_WritestringPushesText :
    ∃ s : State, hostWaits s = false ∧ s.serial.txRoom = true ∧
      s.host.prog = .issue (.writestring [0x48]) :: [.dispatch] ∧
      s.script = .host :: ((List.replicate ([0x48] : List Byte).length writeMoves).flatten ++ [.rst]) :=
  ⟨scripted [.host, .host, .accept, .cch, .rst]
      { input [] with host := { HostSoftware.start with prog := [.issue (.writestring [0x48]), .dispatch] } },
    rfl, rfl, rfl, rfl⟩

theorem witness_EchoPushesByteAndTerminator :
    ∃ s : State, busy s = false ∧ s.port.cmdValid = true ∧ s.port.cmd = encodePollchar true ∧
      s.serial.rxq = 0x72 :: [0x64] ∧ s.serial.txRoom = true ∧
      s.script = .accept :: (List.replicate (s.cfg.echoEol.length + 1) .cch ++ []) :=
  ⟨scripted [.accept, .cch, .cch, .cch] (presented 0x20000001 (input [0x72, 0x64])), rfl, rfl, rfl, rfl, rfl, rfl⟩

/-! ## Witnesses: the host software -/

theorem witness_SchedulerTickEffects :
    ({ base with latch := 1 } : State).latch ≠ base.host.lastSeen ∧ base.latch = base.host.lastSeen ∧
    (HostSoftware.start.elapsed + 1 ≠ 1000) ∧
    ({ HostSoftware.start with elapsed := 999 } : HostSoftware).elapsed + 1 = 1000 ∧
    ({ HostSoftware.start with elapsed := 1000 } : HostSoftware).elapsed + 1 ≠ 1000 ∧
    base.cfg.maskConnected = false ∧ maskReq base = false ∧ base.cfg.menuFromTick = false ∧
    (under { cfg with menuFromTick := true } base).cfg.menuFromTick = true ∧ menuActive base = false ∧
    menuActive (hostCall [.dispatch] base) = true ∧
    menuActive ({ base with host := { HostSoftware.start with awaiting := true } }) = true ∧
    (under { cfg with maskConnected := true } (pending .wReg 0 1)).cfg.maskConnected = true ∧
    maskReq (pending .wReg 0 1) = true := by decide

theorem witness_LatchTogglesAtThousandthTick :
    base.latch = base.host.lastSeen ∧ base.host.elapsed = 0 ∧ 999 < 1000 := by decide

theorem witness_ExitStopsMenu :
    ({ HostSoftware.start with running := false } : HostSoftware).running = false ∧
    (menuAt .main).host.menu.currentState = .main := by decide

/-- A main loop in BUS_MENU, and a tick in UNINITIALIZED. -/
theorem witness_NoInputPollIsIdempotent :
    (∃ s : State, s.host.running = true ∧ s.host.menu.screenPrinted = true ∧ menuActive s = false ∧ busy s = false ∧
      s.port.cmdValid = false ∧ s.serial.rxq = [] ∧ s.cfg.menuFromTick = false ∧
      s.host.menu.currentState = .busMenu ∧ s.script = .mainLoop :: .host :: .accept :: .host :: []) ∧
    (∃ s : State, s.host.running = true ∧ s.host.menu.screenPrinted = true ∧ menuActive s = false ∧ busy s = false ∧
      s.port.cmdValid = false ∧ s.serial.rxq = [] ∧ s.cfg.menuFromTick = true ∧
      s.host.menu.currentState = .uninitialized ∧ s.script = .tick :: .host :: .accept :: .host :: []) :=
  ⟨⟨scripted [.mainLoop, .host, .accept, .host] (menuAt .busMenu), rfl, rfl, rfl, rfl, rfl, rfl, rfl, rfl, rfl⟩,
    ⟨scripted [.tick, .host, .accept, .host] (under { cfg with menuFromTick := true } (menuAt .uninitialized)),
      rfl, rfl, rfl, rfl, rfl, rfl, rfl, rfl, rfl⟩⟩

/-- A key that changes the state, a key after which the flag is still set, and the forced transitions. -/
theorem witness_TransitionClearsPrintedFlag :
    nextIs (menuKey 0x62 (menuAt .main)) (fun t => t.host.menu.currentState != (menuAt .main).host.menu.currentState)
      = true ∧
    nextIs (menuKey 0x61 (menuAt .main)) (fun t => t.host.menu.screenPrinted) = true ∧
    (menuAt .main).host.menu.currentState = .main ∧ (menuAt .uninitialized).host.menu.currentState = .uninitialized ∧
    (menuAt .secondary).host.menu.currentState = .secondary := by decide

theorem witness_LedKeyTogglesLatch : (menuAt .ledToggle).host.menu.currentState = .ledToggle := by decide

theorem witness_TwoNibbleEntry :
    (menuAt .busSetSlave).host.menu.entry = ⟨false, 0⟩ ∧ hexDigit 0x30 = some 0 ∧ hexDigit 0x39 = some 9 ∧ hexDigit 0x66 = some 15 ∧
    (menuAt .busSetSlave).host.menu.currentState = .busSetSlave ∧
    (menuAt .busSetRegister).host.menu.entry = ⟨false, 0⟩ ∧
    (menuAt .busSetRegister).host.menu.currentState = .busSetRegister ∧
    (0x67 : Byte) ≠ 0x71 ∧ hexDigit 0x67 = none ∧ hexDigit 0x2F = none ∧ hexDigit 0x3A = none := by decide

theorem witness_BusMenuReadsAndReports :
    (menuAt .busMenu).host.menu.currentState = .busMenu ∧
    (∃ s : State, s.seq.res = .ok ∧ s.seq.cnt = 1 ∧ Memory.read s.seq.rbuf 0 = some 0x19) ∧
    (∃ s : State, s.seq.res = .err .timeout ∧ s.cfg.surfaceErr = true) :=
  ⟨rfl, ⟨{ base with seq := { seqAt .idle 0 1 with rbuf := [(0, 0x19)], res := .ok } }, rfl, rfl, rfl⟩,
    ⟨{ base with seq := { seqAt .idle 0 1 with res := .err .timeout } }, rfl, rfl⟩⟩

end Sys2Proof.Tests
end

section
/-! SUPPORT and PROOFS. The facts R6 requires of the parameters, one by one, and the invariant at reset. -/

namespace Sys2Proof.Proofs

open Sys2Proof.Machine Sys2Proof.Laws

/-! ## The parameters -/

/-- The parameters of this hardware are as R6 requires, whatever depth the OPEN `RXQ_DEPTH` has. -/
theorem thisHardware_wf : Params.thisHardware.wf = true := by
  have hdepth : (Config.rxqDepthLess1.map (· + 1)).all (1 ≤ ·) = true := by
    cases Config.rxqDepthLess1 <;> simp
  have hcodes : StatusCodes.default.values.Nodup ∧ CwCodes.default.values.Nodup := by decide
  simp [Params.wf, Params.thisHardware, hdepth, hcodes]

/-! ## The invariant at reset -/

/-- A queue cut to its depth keeps to it. -/
theorem length_capped_le {depth : Option Nat} {d : Nat} (hd : d ∈ depth) (q : List Byte) :
    (capped depth q).length ≤ d := by
  obtain rfl : depth = some d := hd
  simp [capped]

/-- Settles O39: the fields of the invariant one by one; nothing waits, and the queue is cut to its capacity. -/
theorem resetSatisfiesInvariant : Obligations.ResetSatisfiesInvariant where
  params := thisHardware_wf
  rbuf := memory_wf_reset
  exclusive := .inl rfl
  waiting h := absurd rfl h
  index h := nomatch h
  result h := nomatch h
  queue := rfl
  rxq _ hd := length_capped_le hd _
  entry := ⟨(nomatch ·), rfl, fun _ => rfl⟩
  stopped h := nomatch h

end Sys2Proof.Proofs
end

section
/-! SUPPORT. How the machine runs a script, move by move, and SEQ's step in a waiting phase as an equation. -/

namespace Sys2Proof.Proofs

open Sys2Proof.Machine Sys2Proof.Laws

/-! ## Running a script -/

/-- What the first move of the script does, the run goes on from. -/
theorem core_run_succ {s s' : State} {m : Move} {rest : List Move} (k : Nat) (hs : s.script = m :: rest)
    (hm : runMove m { s with script := rest } = .next s') : core.run (k + 1) s = core.run k s' := by
  have hstep : core.step s = .next s' := by
    change runMove (nextMove s).1 (nextMove s).2 = _
    rw [nextMove, hs]
    exact hm
  simp only [Host.Core.run, hstep]

/-- Moves that change nothing only use up the script. -/
theorem core_run_quiet {moves : List Move} {s : State} {rest : List Move} (hs : s.script = moves ++ rest)
    (hq : ∀ m ∈ moves, ∀ ms, runMove m { s with script := ms } = .next { s with script := ms }) :
    core.run moves.length s = .next { s with script := rest } := by
  induction moves generalizing s with
  | nil =>
    obtain rfl : s.script = rest := hs
    rfl
  | cons m moves ih =>
    rw [List.length_cons, core_run_succ _ hs (hq m List.mem_cons_self _)]
    exact ih (s := { s with script := moves ++ rest }) rfl fun m' hm' => hq m' (List.mem_cons_of_mem m hm')

/-! ## What the parameters allow -/

theorem countMax_of_wf {c : Params} (h : c.wf = true) : c.countMax = 255 := by
  simp only [Params.wf, Bool.and_eq_true, beq_iff_eq] at h
  obtain ⟨⟨⟨⟨⟨-, hcount⟩, -⟩, -⟩, -⟩, -⟩ := h
  exact hcount

theorem timeoutPolls_pos_of_wf {c : Params} (h : c.wf = true) {l : Nat} (hl : c.timeoutPolls = some l) : 1 ≤ l := by
  simp only [Params.wf, Bool.and_eq_true] at h
  obtain ⟨-, hpolls⟩ := h
  simpa [hl] using hpolls

/-! ## SEQ's step as an equation -/

/-- The success action of the phase SEQ is in (R96 to R102). -/
def advance (s : State) : State :=
  match s.seq.ph with
  | .idle => s
  | .wStart => setPhase .wSlaw (submitTx (addressByte s.seq.sa .write) s)
  | .wSlaw => setPhase .wReg (submitTx s.seq.ra s)
  | .wReg => setPhase .wRstart (submit .rstart s)
  | .wRstart => afterRstart s
  | .wSlar => afterSlar s
  | .wData => if isLast s.seq.idx s.seq.cnt then finish (storeByte s) else nextByte (storeByte s)

/-- SEQ's step at a completion: the phase's check, then its success action or the abort (R95). -/
def verdict (s : State) : State :=
  if passes s.cfg (expectedStatus s.cfg s.seq) s.bus.status then advance s else abort .protocolError s

/-- An idle SEQ has no step. -/
theorem seqMove_idle {s : State} (hp : s.seq.ph = .idle) : seqMove s = .next s := by
  simp [seqMove, awaited_eq_none.mpr hp]

/-- The wait, where the completion rule answers next. -/
theorem awaitDone_eq {k : State → Host.Outcome State Fault Refusal} {s u : State} (hk : k s = .next u) :
    awaitDone k s = .next (if s.bus.done then u else pollAgain s) := by
  unfold awaitDone
  split
  · exact hk
  · rfl

/-- The check, where the success action answers next. -/
theorem expect_eq {st : StatusName} {k : State → Host.Outcome State Fault Refusal} {s u : State} (hk : k s = .next u) :
    expect st k s = .next (if passes s.cfg (some st) s.bus.status then u else abort .protocolError s) := by
  unfold expect
  by_cases h : s.bus.status = s.cfg.statusCode.code st <;> simp [passes, h, hk]

/-- A data byte whose index is an entry of `RBUF` is taken. -/
theorem takeByte_eq {s : State} (last : Bool) (hi : s.seq.idx.toNat < s.cfg.countMax) :
    takeByte last s = .next (if last then finish (storeByte s) else nextByte (storeByte s)) := by
  simp [takeByte, hi]

/-- In every waiting phase SEQ's step is the spin-wait on `DONE`, then the check of the phase and its success action (R93, R95).
Where a byte is stored, `IDX` must be an entry of `RBUF`. -/
theorem seqMove_waiting {s : State} (hp : s.seq.ph ≠ .idle) (hi : s.seq.ph = .wData → s.seq.idx.toNat < s.cfg.countMax) :
    seqMove s = .next (if s.bus.done then verdict s else pollAgain s) := by
  cases h : s.seq.ph with
  | idle => exact absurd h hp
  | wStart =>
    have hk : completeStart s = .next (verdict s) := by
      simp only [completeStart, verdict, advance, expectedStatus, h]
      exact expect_eq rfl
    simpa [seqMove, awaited, h, ControlWord.instr, exec, execCwStart] using awaitDone_eq hk
  | wSlaw =>
    have hk : completeSlaw s = .next (verdict s) := by
      simp only [completeSlaw, verdict, advance, expectedStatus, h]
      exact expect_eq rfl
    simpa [seqMove, awaited, h, ControlWord.instr, exec, execCwTx] using awaitDone_eq hk
  | wReg =>
    have hk : completeReg s = .next (verdict s) := by
      simp only [completeReg, verdict, advance, expectedStatus, h]
      exact expect_eq rfl
    simpa [seqMove, awaited, h, ControlWord.instr, exec, execCwTx] using awaitDone_eq hk
  | wRstart =>
    have hk : completeRstart s = .next (verdict s) := by
      simp only [completeRstart, verdict, advance, expectedStatus, h]
      split
      · exact expect_eq rfl
      · rfl
    simpa [seqMove, awaited, h, ControlWord.instr, exec, execCwRstart] using awaitDone_eq hk
  | wSlar =>
    have hk : completeSlar s = .next (verdict s) := by
      simp only [completeSlar, verdict, advance, expectedStatus, h]
      exact expect_eq rfl
    simpa [seqMove, awaited, h, ControlWord.instr, exec, execCwTx] using awaitDone_eq hk
  | wData =>
    have hk : completeData (isLast s.seq.idx s.seq.cnt) s = .next (verdict s) := by
      simp only [completeData, verdict, advance, expectedStatus, h]
      exact expect_eq (takeByte_eq _ (hi h))
    cases hl : isLast s.seq.idx s.seq.cnt <;> rw [hl] at hk
    · simpa [seqMove, awaited, rxword, h, hl, ControlWord.instr, exec, execCwRxAck] using awaitDone_eq hk
    · simpa [seqMove, awaited, rxword, h, hl, ControlWord.instr, exec, execCwRxNack] using awaitDone_eq hk

/-- An idle block takes a READREG from its port (R94). -/
theorem runMove_accept_readreg {s : State} {sa ra count : Byte} (hb : busy s = false) (hv : s.port.cmdValid = true)
    (hcmd : s.port.cmd = encodeReadreg sa ra count) (hc : count ≠ 0) :
    runMove .accept s = .next (acceptReadreg sa ra count (withdrawCommand s)) := by
  have hc0 : count ≠ 0#8 := hc
  have hdec : decodeCommand s.port.cmd = .ok (.readreg sa ra count) := by
    simp [hcmd, decodeCommand, decodeReadreg, hc0]
  have hb' : busy (withdrawCommand s) = false := hb
  simp [runMove, acceptMove, cmdReady, hb, hv, hdec, exec, execReadreg, hb', countOk, hc0]

end Sys2Proof.Proofs
end

section
/-! PROOFS. READREG under a script of bus answers (O48): where the machine stands in R105's list of submits, that an answer which
passes its check takes it one submit further, and the induction over the answers. -/

namespace Sys2Proof.Proofs

open Sys2Proof.Machine Sys2Proof.Laws

/-! ## SEQ's place in the list of submits -/

/-- Which submit of R105's list SEQ's phase waits for, counted from 0. -/
def position (q : Seq) : Nat :=
  match q.ph with
  | .idle => 0
  | .wStart => 0
  | .wSlaw => 1
  | .wReg => 2
  | .wRstart => 3
  | .wSlar => 4
  | .wData => 5 + q.idx.toNat

theorem position_wData {q : Seq} (hp : q.ph = .wData) : position q = 5 + q.idx.toNat := by
  simp [position, hp]

theorem position_lt_five {q : Seq} (hp : q.ph ≠ .wData) : position q < 5 := by
  cases h : q.ph with
  | wData => exact absurd h hp
  | _ => simp [position, h]

/-- The submits of R105's list from the one SEQ waits for. -/
def toCome (c : Params) (q : Seq) : List (Action × Option StatusName) :=
  (readSequence c q.sa q.ra q.cnt.toNat).drop (position q)

theorem length_readSequence (c : Params) (sa ra : Byte) {n : Nat} (hn : 0 < n) :
    (readSequence c sa ra n).length = 5 + n := by
  simp [readSequence]
  omega

/-- A positive count as a number. -/
theorem toNat_pos_of_ne_zero {cnt : Byte} (hc : cnt ≠ 0) : 0 < cnt.toNat := by
  have : cnt ≠ 0#8 := hc
  bv_omega

/-- The last byte's index as a number (R107(c)). -/
theorem isLast_iff {idx cnt : Byte} (hc : cnt ≠ 0) : isLast idx cnt = true ↔ idx.toNat + 1 = cnt.toNat := by
  simp only [isLast, beq_iff_eq]
  have : cnt ≠ 0#8 := hc
  bv_omega

/-- The data bytes' part of R105's list. -/
theorem readSequence_data (c : Params) (sa ra : Byte) {n i : Nat} (hi : i < n) :
    (readSequence c sa ra n)[5 + i]? =
      some (if i + 1 = n then (.rxNack, some .dataRxNack) else (.rxAck, some .dataRxAck)) := by
  rw [Nat.add_comm 5 i]
  by_cases hl : i + 1 = n
  · subst hl
    simp [readSequence]
  · have hlt : i < n - 1 := by omega
    simp [readSequence, hl, hlt, List.getElem?_append]

/-- SEQ's phase holds the entry of R105's list at its position: the action and the status checked. -/
theorem readSequence_position (c : Params) {q : Seq} {a : Machine.Action} (hc : q.cnt ≠ 0)
    (hi : q.ph = .wData → q.idx < q.cnt) (ha : inFlight q = some a) :
    (readSequence c q.sa q.ra q.cnt.toNat)[position q]? = some (a, expectedStatus c q) := by
  cases hp : q.ph with
  | idle => simp [inFlight, hp] at ha
  | wData =>
    simp only [inFlight, hp, Option.some.injEq] at ha
    simp only [position, expectedStatus, hp, ← ha]
    rw [readSequence_data c _ _ (hi hp)]
    simp only [← isLast_iff hc, rxword, rxExpected]
    split <;> rfl
  | _ =>
    simp only [inFlight, hp, Option.some.injEq] at ha
    simp [readSequence, position, expectedStatus, hp, ha]

/-- The submits to come begin with the one SEQ waits for. -/
theorem toCome_eq_cons (c : Params) {q : Seq} {a : Machine.Action} (hc : q.cnt ≠ 0) (hi : q.ph = .wData → q.idx < q.cnt)
    (ha : inFlight q = some a) :
    toCome c q = (a, expectedStatus c q) :: (readSequence c q.sa q.ra q.cnt.toNat).drop (position q + 1) := by
  obtain ⟨hlt, hget⟩ := List.getElem?_eq_some_iff.mp (readSequence_position c hc hi ha)
  rw [toCome, List.drop_eq_getElem_cons hlt, hget]

/-! ## The machine in a READREG -/

/-- A READREG is under way and `buf` are the bytes received so far. -/
structure Reading (s : State) (buf : List Byte) : Prop where
  params : s.cfg.wf = true
  waiting : s.seq.ph ≠ .idle
  count : s.seq.cnt ≠ 0
  index : s.seq.ph = .wData → s.seq.idx < s.seq.cnt
  noResult : s.seq.res = .none
  notValid : s.port.resValid = false
  received : buf.length = position s.seq - 5
  stored : ∀ i < buf.length, Memory.read s.seq.rbuf i = buf[i]?

/-- The submit of the present phase's action was the last event, after the events `log`. -/
structure Submitted (s : State) (a : Machine.Action) (log : List Event) : Prop where
  action : inFlight s.seq = some a
  pending : s.bus.pending = some a
  undone : s.bus.done = false
  polls : s.seq.polls = 0
  events : s.evlog = log ++ [.submit a]

/-- BUSIF has completed the action `a` (R106). -/
def answered (a : Machine.Action) (status data : Byte) (s : State) : State :=
  { s with
    bus := { s.bus with status := status, data := data, pending := none, done := true }
    evlog := s.evlog ++ [completionEvent a status data] }

/-- BUSIF's completion step with `a` pending. -/
theorem completeAction_pending {s : State} {a : Machine.Action} (status data : Byte) (ha : s.bus.pending = some a) :
    completeAction status data s = answered a status data s := by
  simp [completeAction, ha, answered]

/-- SEQ's present phase awaits the last data byte. -/
def atLast (q : Seq) : Prop := q.ph = .wData ∧ isLast q.idx q.cnt = true

section
variable {s : State} {buf : List Byte} {a : Machine.Action} {log : List Event}

theorem Reading.index_lt_countMax (hr : Reading s buf) (hp : s.seq.ph = .wData) : s.seq.idx.toNat < s.cfg.countMax := by
  have hlt : s.seq.idx.toNat < s.seq.cnt.toNat := hr.index hp
  have := s.seq.cnt.isLt
  rw [countMax_of_wf hr.params]
  omega

/-- Only the last data byte's action is the last of R105's list. -/
theorem atLast_iff (hr : Reading s buf) : atLast s.seq ↔
    (readSequence s.cfg s.seq.sa s.seq.ra s.seq.cnt.toNat).drop (position s.seq + 1) = [] := by
  have hpos := toNat_pos_of_ne_zero hr.count
  rw [List.drop_eq_nil_iff, length_readSequence _ _ _ hpos, atLast, isLast_iff hr.count]
  cases hp : s.seq.ph with
  | wData =>
    have hlt : s.seq.idx.toNat < s.seq.cnt.toNat := hr.index hp
    simp only [position, hp, true_and]
    omega
  | _ => simp only [position, hp, reduceCtorEq, false_and, false_iff]; omega

/-! ## One answer -/

/-- Completing an action changes no part of the READREG's own state. -/
theorem Reading.answered (hr : Reading s buf) (b : Machine.Action) (status data : Byte) (rest : List Move) :
    Reading (answered b status data { s with script := rest }) buf := { hr with }

/-- A READREG's action receives exactly in W_DATA. -/
theorem receives_iff_wData (ha : inFlight s.seq = some a) : a.receives = true ↔ s.seq.ph = .wData := by
  cases hp : s.seq.ph with
  | idle => simp [inFlight, hp] at ha
  | wData =>
    simp only [inFlight, hp, Option.some.injEq, rxword] at ha
    subst ha
    split <;> simp [actionOf, Action.receives]
  | _ =>
    simp only [inFlight, hp, Option.some.injEq] at ha
    simp [← ha, Action.receives]

/-- The action of a receive control word does not depend on `DATA`. -/
theorem actionOf_rxword (idx cnt : Byte) (data : Byte) :
    actionOf (rxword idx cnt) data = actionOf (rxword idx cnt) 0 := by
  unfold rxword
  split <;> rfl

/-- From `s` to `t` SEQ has gone one submit further in R105's list, and has now received `buf`. -/
structure NextSubmit (s t : State) (buf : List Byte) : Prop where
  reading : Reading t buf
  submitted : ∃ b, Submitted t b s.evlog
  cfg : t.cfg = s.cfg
  script : t.script = s.script
  toCome : toCome t.cfg t.seq = (readSequence s.cfg s.seq.sa s.seq.ra s.seq.cnt.toNat).drop (position s.seq + 1)

/-- Before W_DATA a success action sets the phase, perhaps `DATA` and `IDX`, and submits. -/
theorem nextSubmit_of_phase (hr : Reading s buf) (hs : s.seq.ph ≠ .wData) {p : Phase} {i data : Byte} {poked : Bool}
    {cw : ControlWord} (hi : p = .wData → i = 0) (ha : inFlight { s.seq with ph := p, idx := i } = some (actionOf cw data))
    (hpos : position { s.seq with ph := p, idx := i } = position s.seq + 1) :
    NextSubmit s (submit cw { s with
      seq := { s.seq with ph := p, idx := i }, bus := { s.bus with data := data, dataPoked := poked } }) buf where
  reading :=
    { hr with
      waiting := fun hp => by simp [inFlight, show p = .idle from hp] at ha
      index := fun hp => by
        obtain rfl := hi hp
        exact toNat_pos_of_ne_zero hr.count
      received := by
        have hlt := position_lt_five hs
        have hlen := hr.received
        change _ = position { s.seq with ph := p, idx := i } - 5
        omega }
  submitted := ⟨_, ha, rfl, rfl, rfl, rfl⟩
  cfg := rfl
  script := rfl
  toCome := congrArg (List.drop · (readSequence s.cfg s.seq.sa s.seq.ra s.seq.cnt.toNat)) hpos

/-- In W_DATA as many bytes have been received as `IDX` says (R15). -/
theorem Reading.length_eq_idx (hr : Reading s buf) (hp : s.seq.ph = .wData) : buf.length = s.seq.idx.toNat := by
  simp [hr.received, position_wData hp]

/-- The received byte is stored after those before it. -/
theorem Reading.read_storeByte (hr : Reading s buf) (hp : s.seq.ph = .wData) {i : Nat} (hi : i < buf.length + 1) :
    Memory.read (storeByte s).seq.rbuf i = (buf ++ [s.bus.data])[i]? := by
  have hidx := hr.length_eq_idx hp
  rw [storeByte_seq]
  by_cases h : i = buf.length
  · simp [h, hidx]
  · have hlt : i < buf.length := by omega
    rw [memory_read_write_other _ _ (by omega), List.getElem?_append_left hlt]
    exact hr.stored i hlt

/-- `IDX + 1` does not wrap where a byte is still to come (R107(b)). -/
theorem Reading.toNat_idx_succ (hr : Reading s buf) (hp : s.seq.ph = .wData) (hl : isLast s.seq.idx s.seq.cnt = false) :
    (s.seq.idx + 1).toNat = s.seq.idx.toNat + 1 ∧ s.seq.idx.toNat + 1 < s.seq.cnt.toNat := by
  have hlt : s.seq.idx.toNat < s.seq.cnt.toNat := hr.index hp
  have hne : s.seq.idx.toNat + 1 ≠ s.seq.cnt.toNat := fun h => by simp [(isLast_iff hr.count).mpr h] at hl
  have := s.seq.cnt.isLt
  refine ⟨?_, by omega⟩
  rw [BitVec.toNat_add]
  change (s.seq.idx.toNat + 1) % 256 = _
  omega

/-- A data byte that is not the last is stored, and the next one asked for. -/
theorem nextSubmit_nextByte (hr : Reading s buf) (hp : s.seq.ph = .wData) (hl : isLast s.seq.idx s.seq.cnt = false) :
    NextSubmit s (nextByte (storeByte s)) (buf ++ [s.bus.data]) := by
  obtain ⟨hsucc, hlt⟩ := hr.toNat_idx_succ hp hl
  have hpos : position (nextByte (storeByte s)).seq = position s.seq + 1 := by
    rw [position_wData hp, position_wData (q := (nextByte (storeByte s)).seq) hp]
    exact congrArg (5 + ·) hsucc
  have hreading : Reading (nextByte (storeByte s)) (buf ++ [s.bus.data]) :=
    { hr with
      index := fun _ => by
        change (s.seq.idx + 1).toNat < s.seq.cnt.toNat
        omega
      received := by
        rw [List.length_append, hr.length_eq_idx hp, hpos, position_wData hp, List.length_singleton]
        omega
      stored := fun i hi => hr.read_storeByte hp (by simpa using hi) }
  have haction : inFlight (nextByte (storeByte s)).seq =
      some (actionOf (rxword (s.seq.idx + 1) s.seq.cnt) s.bus.data) := by
    simp [nextByte, inFlight, hp, actionOf_rxword _ _ s.bus.data]
  exact ⟨hreading, ⟨_, haction, rfl, rfl, rfl, rfl⟩, rfl, rfl, congrArg (List.drop · _) hpos⟩

/-- A success action that is not the last goes one submit further; in W_DATA it takes the byte. -/
theorem nextSubmit_advance (hr : Reading s buf) (hn : ¬atLast s.seq) :
    NextSubmit s (advance s) (if s.seq.ph = .wData then buf ++ [s.bus.data] else buf) := by
  have hw : s.seq.ph ≠ .idle := hr.waiting
  cases hp : s.seq.ph <;> simp only [advance, hp, if_true, if_false, reduceCtorEq]
  case idle => exact absurd hp hw
  case wData =>
    have hl : isLast s.seq.idx s.seq.cnt = false := by simpa [atLast, hp] using hn
    simpa [hl] using nextSubmit_nextByte hr hp hl
  case wStart => exact nextSubmit_of_phase hr (by simp [hp]) nofun rfl (by simp [position, hp])
  case wSlaw => exact nextSubmit_of_phase hr (by simp [hp]) nofun rfl (by simp [position, hp])
  case wReg => exact nextSubmit_of_phase hr (by simp [hp]) nofun rfl (by simp [position, hp])
  case wRstart => exact nextSubmit_of_phase hr (by simp [hp]) nofun rfl (by simp [position, hp])
  case wSlar =>
    exact nextSubmit_of_phase hr (by simp [hp]) (fun _ => rfl) (congrArg some (actionOf_rxword _ _ _).symm)
      (by simp [position, hp])

/-- The bytes of an `Ok` are those `RBUF` holds below `CNT` (R16, R75). -/
theorem okBytes_eq {bytes : List Byte} (hres : s.seq.res = .ok) (hlen : bytes.length = s.seq.cnt.toNat)
    (hread : ∀ i < bytes.length, Memory.read s.seq.rbuf i = bytes[i]?) : okBytes s = bytes := by
  have hmap : (List.range s.seq.cnt.toNat).map (rbufAt s) = bytes.map some := by
    apply List.ext_getElem (by simp [hlen])
    intro i hi _
    have hi' : i < s.seq.cnt.toNat := by simpa using hi
    simp [rbufAt, hres, hi', hread i (hlen ▸ hi')]
  calc okBytes s = ((List.range s.seq.cnt.toNat).map (rbufAt s)).filterMap id := by
        rw [List.filterMap_map]; rfl
    _ = bytes := by rw [hmap, List.filterMap_map]; exact List.filterMap_some

/-- How a scripted READREG has ended: what R105's function gives, after the events `log`, with these moves left. -/
structure Ended (out : ScriptResult × List Event) (log : List Event) (rest : List Move) (t : State) : Prop where
  result : shows out.1 t
  events : t.evlog = log ++ out.2
  script : t.script = rest

/-- The script's rest is no part of what a READREG's end shows. -/
theorem Ended.withScript {out : ScriptResult × List Event} {ms : List Move} {t : State} (h : Ended out log ms t)
    (rest : List Move) : Ended out log rest { t with script := rest } where
  result := by
    have hshows := h.result
    cases hout : out.1 <;> rw [hout] at hshows <;> exact hshows
  events := h.events
  script := rfl

/-- The success action of the last data byte ends the READREG with its bytes (R102, R103). -/
theorem advance_atLast (hr : Reading s buf) (hl : atLast s.seq) :
    (advance s).seq.ph = .idle ∧ Ended (runSequence s.cfg [] [] (buf ++ [s.bus.data])) s.evlog s.script (advance s) := by
  obtain ⟨hp, hlast⟩ := hl
  have hadv : advance s = finish (storeByte s) := by simp [advance, hp, hlast]
  have hlen : (buf ++ [s.bus.data]).length = s.seq.cnt.toNat := by
    simp [hr.length_eq_idx hp, (isLast_iff hr.count).mp hlast]
  have hread : ∀ i < (buf ++ [s.bus.data]).length, Memory.read (storeByte s).seq.rbuf i = (buf ++ [s.bus.data])[i]? :=
    fun i hi => hr.read_storeByte hp (by simpa using hi)
  rw [hadv]
  obtain ⟨hstop, hfin⟩ | ⟨hstop, hfin⟩ := finish_cases (storeByte s) <;> rw [hfin] <;> rw [storeByte_cfg] at hstop
  · exact ⟨rfl, ⟨rfl, rfl, okBytes_eq rfl hlen hread, rfl⟩, by simp [runSequence, hstop, actionOf], rfl⟩
  · exact ⟨rfl, ⟨rfl, rfl, okBytes_eq rfl hlen hread, rfl⟩, by simp [runSequence, hstop], rfl⟩

end

/-! ## The whole script -/

section
variable {s : State} {buf : List Byte} {a : Machine.Action} {log : List Event} {rest : List Move} {answers : List (Byte × Byte)}

/-- A run of `k` steps ends the READREG so. -/
def RunsTo (k : Nat) (s : State) (out : ScriptResult × List Event) (log : List Event) (rest : List Move) : Prop :=
  ∃ t, core.run k s = .next t ∧ Ended out log rest t

/-- An answer and SEQ's look at it are two moves, and their events stand before those of what follows. -/
theorem runsTo_of_exchange {k : Nat} {out : ScriptResult × List Event} {status data : Byte} {ms : List Move}
    (hr : Reading s buf) (hsub : Submitted s a log) (hs : s.script = .complete status data :: .seq :: ms)
    (h : RunsTo k (verdict (answered a status data { s with script := ms })) out
      (s.evlog ++ [completionEvent a status data]) rest) :
    RunsTo (k + 2) s (out.1, .submit a :: completionEvent a status data :: out.2) log rest := by
  have hcomplete : runMove (.complete status data) { s with script := .seq :: ms } =
      .next (answered a status data { s with script := .seq :: ms }) :=
    congrArg Host.Outcome.next (completeAction_pending status data hsub.pending)
  have hseq : runMove .seq (answered a status data { s with script := ms }) =
      .next (verdict (answered a status data { s with script := ms })) :=
    seqMove_waiting hr.waiting hr.index_lt_countMax
  obtain ⟨t, hrun, hend⟩ := h
  refine ⟨t, ?_, hend.result, by simp [hend.events, hsub.events], hend.script⟩
  rw [core_run_succ _ hs hcomplete, core_run_succ k rfl hseq, hrun]

/-- With SEQ idle and nothing pending for BUSIF's moves, the rest of a script changes nothing. -/
theorem core_run_idle {moves : List Move} (hs : s.script = moves ++ rest) (hp : s.seq.ph = .idle)
    (hm : ∀ m ∈ moves, m = .seq ∨ (s.bus.pending = none ∧ ∃ status data, m = .complete status data)) :
    core.run moves.length s = .next { s with script := rest } := by
  refine core_run_quiet hs fun m hmem ms => ?_
  obtain rfl | ⟨hpend, status, data, rfl⟩ := hm m hmem
  · exact seqMove_idle hp
  · simp [runMove, completeAction, hpend]

theorem length_scriptMoves (answers : List (Byte × Byte)) : (scriptMoves answers).length = 2 * answers.length := by
  simp [scriptMoves, Nat.mul_comm]

theorem length_timeoutMoves (c : Params) : (timeoutMoves c).length = c.timeoutPolls.getD 0 := List.length_replicate

/-- After an answer that fails its check the rest of the script changes nothing. -/
theorem runsTo_protocolError (hpend : s.bus.pending = none)
    (hs : s.script = scriptMoves answers ++ (timeoutMoves s.cfg ++ rest)) :
    RunsTo (2 * answers.length + s.cfg.timeoutPolls.getD 0) (abort .protocolError s) (.err .protocolError, []) s.evlog rest := by
  have hmoves : ∀ m ∈ scriptMoves answers ++ timeoutMoves s.cfg,
      m = .seq ∨ (s.bus.pending = none ∧ ∃ status data, m = .complete status data) := by
    simp only [scriptMoves, timeoutMoves, List.mem_append, List.mem_flatMap, List.mem_replicate]
    rintro m (⟨⟨status, data⟩, -, hm⟩ | ⟨-, rfl⟩)
    · obtain rfl | rfl : m = .complete status data ∨ m = .seq := by simpa using hm
      · exact .inr ⟨hpend, status, data, rfl⟩
      · exact .inl rfl
    · exact .inl rfl
  have hrun := core_run_idle (s := abort .protocolError s) (hs.trans (List.append_assoc _ _ _).symm) rfl hmoves
  rw [List.length_append, length_scriptMoves, length_timeoutMoves] at hrun
  exact ⟨_, hrun, ⟨rfl, rfl, rfl⟩, by simp, rfl⟩

/-- After the last data byte the polls of a bounded script change nothing. -/
theorem runsTo_ok (hr : Reading s buf) (hl : atLast s.seq) (hs : s.script = timeoutMoves s.cfg ++ rest) :
    RunsTo (s.cfg.timeoutPolls.getD 0) (advance s) (runSequence s.cfg [] [] (buf ++ [s.bus.data])) s.evlog rest := by
  obtain ⟨hidle, hend⟩ := advance_atLast hr hl
  have hrun := core_run_idle (hend.script.trans hs) hidle fun m hm => .inl (List.eq_of_mem_replicate hm)
  rw [length_timeoutMoves] at hrun
  exact ⟨_, hrun, hend.withScript rest⟩

/-- SEQ's move while `DONE = 0`. -/
theorem Reading.poll (hr : Reading s buf) (hd : s.bus.done = false) (ms : List Move) :
    runMove .seq { s with script := ms } = .next (pollAgain { s with script := ms }) := by
  simpa [runMove, hd] using seqMove_waiting (s := { s with script := ms }) hr.waiting hr.index_lt_countMax

/-- Polls that all find `DONE = 0`, as many as the bound still allows, end the READREG with Timeout (R93). -/
theorem runsTo_timeout {l n : Nat} (hr : Reading s buf) (hd : s.bus.done = false) (hl : s.cfg.timeoutPolls = some l)
    (hn : s.seq.polls + (n + 1) = l) (hs : s.script = List.replicate (n + 1) .seq ++ rest) :
    RunsTo (n + 1) s (.err .timeout, []) s.evlog rest := by
  induction n generalizing s with
  | zero =>
    have hlast : ∀ ms, pollAgain { s with script := ms } =
        abort .timeout { s with script := ms, seq.polls := s.seq.polls + 1 } := fun ms => by
      simp [pollAgain, hl, ← hn]
    rw [RunsTo, core_run_succ 0 hs (hr.poll hd _), hlast]
    exact ⟨_, rfl, ⟨rfl, rfl, rfl⟩, by simp, rfl⟩
  | succ n ih =>
    have hcount : ∀ ms, pollAgain { s with script := ms } =
        { s with script := ms, seq.polls := s.seq.polls + 1 } := fun ms => by
      simp [pollAgain, hl, ← hn]
    rw [RunsTo, core_run_succ (n + 1) hs (hr.poll hd _), hcount]
    exact ih (s := { s with script := _, seq.polls := s.seq.polls + 1 }) { hr with } hd hl (by simp; omega) rfl

/-- The last submit of a script that has no further answer is polled for: a hang, or a timeout under a bound. -/
theorem runsTo_unanswered (hr : Reading s buf) (hsub : Submitted s a log) (hs : s.script = timeoutMoves s.cfg ++ rest) :
    RunsTo (s.cfg.timeoutPolls.getD 0) s (unanswered s.cfg, [.submit a]) log rest := by
  cases hl : s.cfg.timeoutPolls with
  | none =>
    have hrest : s.script = rest := by simpa [timeoutMoves, hl] using hs
    exact ⟨s, rfl, by simpa [unanswered, hl] using ⟨hr.waiting, hr.noResult, hr.notValid⟩, hsub.events, hrest⟩
  | some l =>
    obtain ⟨n, rfl⟩ := Nat.exists_eq_add_of_le' (timeoutPolls_pos_of_wf hr.params hl)
    obtain ⟨t, hrun, hend⟩ :=
      runsTo_timeout hr hsub.undone hl (by rw [hsub.polls, Nat.zero_add]) (by simpa [timeoutMoves, hl] using hs)
    exact ⟨t, hrun, by simpa [unanswered, hl] using hend.result, by simp [hend.events, hsub.events], hend.script⟩

/-- R105's loop at an answer that passes its check. -/
theorem runSequence_pass {c : Params} {e : Option StatusName} {status : Byte} (h : passes c e status = true)
    (ws : List (Machine.Action × Option StatusName)) (data : Byte) :
    runSequence c ((a, e) :: ws) ((status, data) :: answers) buf =
      ((runSequence c ws answers (if a.receives then buf ++ [data] else buf)).1,
        .submit a :: completionEvent a status data ::
          (runSequence c ws answers (if a.receives then buf ++ [data] else buf)).2) := by
  rw [runSequence, if_pos h]

/-- R105's loop at an answer that fails its check. -/
theorem runSequence_fail {c : Params} {e : Option StatusName} {status : Byte} (h : ¬passes c e status = true)
    (ws : List (Machine.Action × Option StatusName)) (data : Byte) :
    runSequence c ((a, e) :: ws) ((status, data) :: answers) buf =
      (.err .protocolError, [.submit a, completionEvent a status data]) := by
  rw [runSequence, if_neg h]

/-- The answers of a script, from the submit SEQ waits for: the machine ends as R105's loop over the submits to come says. -/
theorem runsTo_runSequence (hr : Reading s buf) (hsub : Submitted s a log)
    (hlen : answers.length ≤ (toCome s.cfg s.seq).length)
    (hs : s.script = scriptMoves answers ++ (timeoutMoves s.cfg ++ rest)) :
    RunsTo (2 * answers.length + s.cfg.timeoutPolls.getD 0) s (runSequence s.cfg (toCome s.cfg s.seq) answers buf)
      log rest := by
  induction answers generalizing s buf a log with
  | nil =>
    rw [toCome_eq_cons s.cfg hr.count hr.index hsub.action]
    simpa [runSequence] using runsTo_unanswered hr hsub (by simpa [scriptMoves] using hs)
  | cons answer answers ih =>
    obtain ⟨status, data⟩ := answer
    obtain ⟨ws, hws, hwords⟩ : ∃ ws,
        (readSequence s.cfg s.seq.sa s.seq.ra s.seq.cnt.toNat).drop (position s.seq + 1) = ws ∧
        toCome s.cfg s.seq = (a, expectedStatus s.cfg s.seq) :: ws :=
      ⟨_, rfl, toCome_eq_cons s.cfg hr.count hr.index hsub.action⟩
    have hsize : 2 * (answers.length + 1) + s.cfg.timeoutPolls.getD 0 =
        2 * answers.length + s.cfg.timeoutPolls.getD 0 + 2 := by omega
    rw [hwords, List.length_cons, List.length_cons, Nat.add_le_add_iff_right] at hlen
    rw [hwords, List.length_cons, hsize]
    have hrx := hr.answered a status data (scriptMoves answers ++ (timeoutMoves s.cfg ++ rest))
    set x := answered a status data { s with script := scriptMoves answers ++ (timeoutMoves s.cfg ++ rest) }
    by_cases hpass : passes s.cfg (expectedStatus s.cfg s.seq) status = true
    · have hverdict : verdict x = advance x := if_pos hpass
      rw [runSequence_pass hpass]
      refine runsTo_of_exchange hr hsub hs (hverdict ▸ ?_)
      by_cases hl : atLast s.seq
      · have hreceives : a.receives = true := (receives_iff_wData hsub.action).mpr hl.1
        obtain rfl : ws = [] := hws.symm.trans ((atLast_iff hr).mp hl)
        obtain rfl : answers = [] := List.length_eq_zero_iff.mp (Nat.le_zero.mp hlen)
        rw [if_pos hreceives, List.length_nil, Nat.mul_zero, Nat.zero_add]
        exact runsTo_ok hrx hl rfl
      · have hnext := nextSubmit_advance hrx hl
        obtain ⟨b, hsubmitted⟩ := hnext.submitted
        have hnextWords : toCome (advance x).cfg (advance x).seq = ws := hnext.toCome.trans hws
        have hrest := ih hnext.reading hsubmitted (hnextWords ▸ hlen) (hnext.cfg ▸ hnext.script)
        rw [hnextWords, hnext.cfg] at hrest
        simp only [receives_iff_wData hsub.action]
        exact hrest
    · have hverdict : verdict x = abort .protocolError x := if_neg hpass
      rw [runSequence_fail hpass]
      exact runsTo_of_exchange (out := (.err .protocolError, [])) hr hsub hs (hverdict ▸ runsTo_protocolError (s := x) rfl rfl)

end

/-- The acceptance of a READREG is its first submit (R94). -/
theorem acceptReadreg_submitted {s : State} {sa ra count : Byte} (hwf : s.cfg.wf = true) (hc : count ≠ 0) :
    Reading (acceptReadreg sa ra count s) [] ∧ Submitted (acceptReadreg sa ra count s) .start s.evlog :=
  ⟨⟨hwf, nofun, hc, nofun, rfl, rfl, rfl, nofun⟩, ⟨rfl, rfl, rfl, rfl, rfl⟩⟩

/-- Settles O48: the acceptance is the first submit, and the answers are followed by induction from there. -/
theorem readregRefinesScriptFunction : Obligations.ReadregRefinesScriptFunction := by
  intro s sa ra count answers rest hwf hb hv hcmd hc hlen hs
  set s' : State := { s with script := scriptMoves answers ++ timeoutMoves s.cfg ++ rest }
  have haccept : runMove .accept s' = .next (acceptReadreg sa ra count (withdrawCommand s')) :=
    runMove_accept_readreg hb hv hcmd hc
  obtain ⟨hr, hsub⟩ := acceptReadreg_submitted (s := withdrawCommand s') (sa := sa) (ra := ra) hwf hc
  have hall : answers.length ≤ (readSequence s.cfg sa ra count.toNat).length := by
    rwa [length_readSequence _ _ _ (toNat_pos_of_ne_zero hc)]
  obtain ⟨t, hrun, hend⟩ := runsTo_runSequence hr hsub hall (List.append_assoc _ _ _)
  refine ⟨t, ?_, hend.result, hend.events, hend.script⟩
  rw [Nat.add_assoc, Nat.add_comm 1, core_run_succ _ hs haccept]
  exact hrun

end Sys2Proof.Proofs
end

section
/-! SUPPORT. What one step of the device can do, said once: a move outside the block changes nothing of what the block is made of,
and every other move is one operation of SEQ, CCH, BUSIF or SERIAL. -/

namespace Sys2Proof.Proofs

open Sys2Proof.Machine Sys2Proof.Laws

variable {s t u : State}

/-! ## Moves around the block -/

/-- What the invariant asks of the menu (R150, R174, R175). -/
structure MenuLegal (h : HostSoftware) : Prop where
  entry : EntryOk h.menu
  stopped : h.menu.currentState = .exit → h.running = false

/-- From `s` to `t` only the host software, the port's inputs, `TX_ROOM`, LATCH and the model's own script and counter have
moved, and the menu has stayed legal. -/
structure Around (s t : State) : Prop where
  cfg : t.cfg = s.cfg := by rfl
  seq : t.seq = s.seq := by rfl
  cch : t.cch = s.cch := by rfl
  bus : t.bus = s.bus := by rfl
  rxq : t.serial.rxq = s.serial.rxq := by rfl
  resValid : t.port.resValid = s.port.resValid := by rfl
  evlog : t.evlog = s.evlog := by rfl
  menu : MenuLegal s.host → MenuLegal t.host := by exact fun h => ⟨{ h.entry with }, h.stopped⟩

theorem Around.refl (s : State) : Around s s := {}

theorem Around.trans (h : Around s t) (h' : Around t u) : Around s u where
  cfg := h'.cfg.trans h.cfg
  seq := h'.seq.trans h.seq
  cch := h'.cch.trans h.cch
  bus := h'.bus.trans h.bus
  rxq := h'.rxq.trans h.rxq
  resValid := h'.resValid.trans h.resValid
  evlog := h'.evlog.trans h.evlog
  menu := h'.menu ∘ h.menu

/-- A move that is refused or stays around the block; in particular it does not fault. -/
inductive AroundMove (s : State) : Host.Outcome State Fault Refusal → Prop
  | next {t : State} (h : Around s t) : AroundMove s (.next t)
  | refused (r : Refusal) : AroundMove s (.refused r)

theorem AroundMove.of_next (h : AroundMove s (.next t)) : Around s t := by
  cases h; assumption

theorem AroundMove.ne_fault {o : Host.Outcome State Fault Refusal} (h : AroundMove s o) (f : Fault) : o ≠ .fault f := by
  cases h <;> nofun

theorem AroundMove.of_around {o : Host.Outcome State Fault Refusal} (h : Around s t) (h' : AroundMove t o) :
    AroundMove s o := by
  cases h' with
  | next h' => exact .next (h.trans h')
  | refused r => exact .refused r

/-! ## The menu's keys -/

theorem around_hostCall (ops : List HostOp) (s : State) : Around s (hostCall ops s) := {}

theorem around_say (ls : List (List Byte)) (s : State) : Around s (say ls s) := around_hostCall _ s

theorem around_setLatch_say (v : Byte) (ls : List (List Byte)) (s : State) : Around s (say ls (setLatch v s)) :=
  { around_say ls s with }

theorem around_reprint (s : State) : Around s (reprint s) := {}

theorem around_markPrinted (s : State) : Around s (markPrinted s) := {}

/-- An empty digit entry is legal in every menu state. -/
theorem entryOk_empty {m : MenuContext} (h : m.entry = ⟨false, 0⟩) : EntryOk m := by
  refine ⟨?_, ?_, ?_⟩ <;> simp [h]

theorem around_clearEntry (s : State) : Around s (clearEntry s) :=
  { menu := fun h => ⟨entryOk_empty rfl, h.stopped⟩ }

/-- The two menu states in which a digit entry is built (R174). -/
def isEntryState (m : MenuState) : Prop := m = .busSetSlave ∨ m = .busSetRegister

/-- No digit is pending outside the entry states, so a transition from there keeps the digit entry legal. -/
theorem entryOk_transition {m : MenuContext} (h : EntryOk m) (hs : ¬isEntryState m.currentState) (next : MenuState) :
    EntryOk { m with currentState := next, screenPrinted := false } :=
  { h with state := fun hn => absurd (h.state hn) hs }

theorem around_enter {m : MenuState} (hm : m ≠ .exit) (hs : ¬isEntryState s.host.menu.currentState) :
    Around s (enter m s) :=
  { menu := fun h => ⟨entryOk_transition h.entry hs m, fun he => absurd he hm⟩ }

theorem around_enterExit (hs : ¬isEntryState s.host.menu.currentState) : Around s (enterExit s) :=
  { menu := fun h => ⟨entryOk_transition h.entry hs .exit, fun _ => rfl⟩ }

theorem around_unknownKey (b : Byte) (s : State) : AroundMove s (unknownKey b s) := by
  unfold unknownKey
  split
  · exact .next ((around_say _ s).trans (around_reprint _))
  · exact .refused _

theorem around_mainKey (b : Byte) (hs : ¬isEntryState s.host.menu.currentState) : AroundMove s (mainKey b s) := by
  unfold mainKey
  split_ifs
  · exact .next (around_say _ s)
  · exact .next (around_enter nofun hs)
  · exact .next (around_enter nofun hs)
  · exact .next (around_enter nofun hs)
  · exact .next (around_hostCall _ s)
  · exact .next (around_enter nofun hs)
  · exact .next (around_enterExit hs)
  · exact around_unknownKey b s

theorem around_secondaryKey (b : Byte) (hs : ¬isEntryState s.host.menu.currentState) :
    AroundMove s (secondaryKey b s) := by
  unfold secondaryKey
  split_ifs
  · exact .next (around_reprint s)
  · exact .next (around_enter nofun hs)
  · exact around_unknownKey b s

theorem around_ledKey (b : Byte) (hs : ¬isEntryState s.host.menu.currentState) : AroundMove s (ledKey b s) := by
  unfold ledKey ledOn ledOff
  split_ifs
  · exact .next (around_setLatch_say _ _ s)
  · exact .next (around_setLatch_say _ _ s)
  · exact .next (around_setLatch_say _ _ s)
  · exact .next (around_setLatch_say _ _ s)
  · exact .next (around_enter nofun hs)
  · exact around_unknownKey b s

theorem around_busKey (b : Byte) (hs : ¬isEntryState s.host.menu.currentState) : AroundMove s (busKey b s) := by
  unfold busKey
  split_ifs
  · exact .next (around_enter nofun hs)
  · exact .next (around_enter nofun hs)
  · exact .next (around_hostCall _ s)
  · exact .next (around_enter nofun hs)
  · exact around_unknownKey b s

/-- A digit as a high nibble leaves the low nibble open. -/
theorem low_nibble_shifted (n : Nibble) : (n.toByte <<< 4).extractLsb' 0 4 = 0 := by
  revert n; decide

theorem around_entryDigit (n : Nibble) (hs : isEntryState s.host.menu.currentState) : Around s (entryDigit n s) := by
  unfold entryDigit
  split
  · exact { menu := fun _ => ⟨entryOk_empty rfl, nofun⟩ }
  · exact { menu := fun h => ⟨⟨fun _ => hs, low_nibble_shifted n, nofun⟩, h.stopped⟩ }

theorem around_entryKey (b : Byte) (hs : isEntryState s.host.menu.currentState) : Around s (entryKey b s) := by
  unfold entryKey
  split
  · exact { menu := fun _ => ⟨entryOk_empty rfl, nofun⟩ }
  · split
    · exact (around_say _ s).trans (around_clearEntry _)
    · exact around_entryDigit _ hs

theorem around_menuKey (b : Byte) (s : State) : AroundMove s (menuKey b s) := by
  unfold menuKey
  cases hm : s.host.menu.currentState with
  | uninitialized => exact around_mainKey b (by simp [hm, isEntryState])
  | main => exact around_mainKey b (by simp [hm, isEntryState])
  | secondary => exact around_secondaryKey b (by simp [hm, isEntryState])
  | ledToggle => exact around_ledKey b (by simp [hm, isEntryState])
  | busMenu => exact around_busKey b (by simp [hm, isEntryState])
  | busSetSlave => exact .next (around_entryKey b (.inl hm))
  | busSetRegister => exact .next (around_entryKey b (.inr hm))
  | exit => exact .next (.refl s)

/-! ## The host's other moves -/

theorem around_showResult (fmt : List Byte → List Byte) (n : Nat) (s : State) : Around s (showResult fmt n s) := by
  unfold showResult
  split
  · exact around_say _ s
  · split
    · exact around_say _ s
    · exact { around_say [fmt (freeBytes n s)] s with }
  · exact .refl s

theorem around_menuResume (op : HostOp) (s : State) : AroundMove s (menuResume op s) := by
  cases op with
  | issue i => exact .next (.refl s)
  | dispatch => exact .next (around_hostCall _ s)
  | printed => exact .next (around_markPrinted s)
  | key b => exact .of_around {} (around_menuKey b _)
  | showRead => exact .next (around_showResult _ _ s)
  | showSensor => exact .next (around_showResult _ _ s)

theorem around_hostGoesOn (rest : List HostOp) (s : State) : Around s (hostGoesOn rest s) := {}

theorem around_schedulerTick (s : State) : Around s (schedulerTick s) := by
  unfold schedulerTick
  split_ifs <;> exact {}

/-- Settling UNINITIALIZED to MAIN keeps the two entry states. -/
theorem isEntryState_settleState {m : MenuState} (h : isEntryState m) : isEntryState (settleState m) := by
  obtain rfl | rfl := h
  · exact .inl rfl
  · exact .inr rfl

/-- Only EXIT settles to EXIT. -/
theorem eq_exit_of_settleState {m : MenuState} (h : settleState m = .exit) : m = .exit := by
  cases m <;> simp [settleState] at h ⊢

theorem around_menuInvoke (s : State) : Around s (menuInvoke s) := by
  unfold menuInvoke
  split
  · exact { menu := fun h => ⟨{ h.entry with state := fun hn => isEntryState_settleState (h.entry.state hn) },
      fun he => h.stopped (eq_exit_of_settleState he)⟩ }
  · exact .refl s

theorem around_tickCallback (s : State) : Around s (tickCallback s) := by
  unfold tickCallback
  split_ifs
  · exact .refl s
  · exact (around_schedulerTick s).trans (around_menuInvoke _)
  · exact around_schedulerTick s

theorem around_mainLoopCall (s : State) : Around s (mainLoopCall s) := by
  unfold mainLoopCall
  split
  · exact .refl s
  · exact around_menuInvoke s

/-! ## The ports' and SERIAL's moves -/

theorem around_presentMove (w : CmdWord) (s : State) : Around s (presentMove w s) := by
  obtain ⟨-, h⟩ | ⟨-, h⟩ := presentMove_cases w s <;> rw [h] <;> exact {}

theorem around_withdrawMove (s : State) : Around s (withdrawMove s) := by
  obtain ⟨-, h⟩ | ⟨-, h⟩ := withdrawMove_cases s <;> rw [h] <;> exact {}

/-- Taking the next move off the script or from the oracle is no part of the device. -/
theorem around_nextMove (s : State) : Around s (nextMove s).2 := by
  obtain ⟨m, rest, -, h⟩ | ⟨-, h⟩ := nextMove_cases s <;> rw [h] <;> exact {}

/-! ## The block's operations -/

/-- What a move that is not around the block does: nothing, an instruction's meaning, or one operation of another agent. -/
inductive BlockStep (s : State) : State → Prop
  | stay : BlockStep s s
  | command {i : Instr} {t : State} (h : CommandStep s i t) : BlockStep s t
  | control {cw : ControlWord} {t : State} (h : ControlStep cw s t) : BlockStep s t
  | reset : BlockStep s (resetBlock s)
  | push {b : Byte} {rest : List Byte} (hq : s.cch.cq = b :: rest) (hr : rest ≠ []) (hc : s.cch.cph ≠ .idle) :
      BlockStep s { pushByte b s with cch.cq := rest }
  | pushLast (b : Byte) (hc : s.cch.cph ≠ .idle) : BlockStep s (endSend (pushByte b s))
  | complete {a : Machine.Action} (status data : Byte) (ha : s.bus.pending = some a) :
      BlockStep s (answered a status data s)
  | dropStop (ha : s.bus.pending = some .stop) : BlockStep s { s with bus.pending := none }
  | arrive (b : Byte) (hroom : rxqHasRoom s = true) : BlockStep s { s with serial.rxq := s.serial.rxq ++ [b] }
  | pokeData (b : Byte) (hp : s.seq.ph = .idle) : BlockStep s (pokeData b s)

theorem blockStep_of_exec {i : Instr} (h : exec i s = .next t) : BlockStep s t := by
  obtain h | ⟨cw, -, h⟩ := exec_next h
  · exact .command h
  · exact .control h

theorem blockStep_sendStep (s : State) : BlockStep s (sendStep s) := by
  obtain h | ⟨b, rest, hc, hq, -, hr, h⟩ | ⟨b, hc, -, -, h⟩ := sendStep_cases s <;> rw [h]
  · exact .stay
  · exact .push hq hr hc
  · exact .pushLast b hc

theorem blockStep_completeAction (status data : Byte) (s : State) : BlockStep s (completeAction status data s) := by
  obtain ⟨-, h⟩ | ⟨a, ha, h⟩ := completeAction_cases status data s <;> rw [h]
  · exact .stay
  · exact .complete status data ha

theorem blockStep_dropStop (s : State) : BlockStep s (dropStop s) := by
  unfold Machine.dropStop
  split
  · exact .dropStop ‹_›
  · exact .stay

theorem blockStep_arrive (b : Byte) (s : State) : BlockStep s (arrive b s) := by
  unfold Machine.arrive
  split
  · exact .arrive b ‹_›
  · exact .stay

/-- The acceptance takes the word off the port, then executes it. -/
theorem acceptMove_next (h : acceptMove s = .next t) : t = s ∨ ∃ i, exec i (withdrawCommand s) = .next t := by
  unfold acceptMove at h
  split at h
  · split at h
    · exact .inr ⟨_, h⟩
    · cases h; exact .inl rfl
  · cases h; exact .inl rfl

theorem seqMove_next (h : seqMove s = .next t) : BlockStep s t := by
  unfold seqMove at h
  split at h
  · exact blockStep_of_exec h
  · cases h; exact .stay

theorem pokeTxnMove_next {w : Byte} (h : pokeTxnMove w s = .next t) : BlockStep s t := by
  unfold pokeTxnMove at h
  split at h
  · split at h
    · exact blockStep_of_exec h
    · cases h
  · cases h

theorem pokeDataMove_next {b : Byte} (h : pokeDataMove b s = .next t) : s.seq.ph = .idle ∧ t = pokeData b s := by
  unfold pokeDataMove at h
  split at h
  · cases h; exact ⟨‹_›, rfl⟩
  · cases h

/-- `t` is reached from `s` by a change around the block and then one step of the block. -/
def StepsTo (s t : State) : Prop := ∃ u, Around s u ∧ BlockStep u t

theorem StepsTo.of_block (h : BlockStep s t) : StepsTo s t := ⟨s, .refl s, h⟩

theorem StepsTo.of_around (h : Around s t) : StepsTo s t := ⟨t, h, .stay⟩

/-- The inversion of the host's move. -/
theorem stepsTo_hostMove (h : hostMove s = .next t) : StepsTo s t := by
  obtain ⟨-, rfl⟩ | ⟨-, -, rfl⟩ | ⟨i, rest, w, -, -, -, rfl⟩ | ⟨i, rest, -, -, -, h⟩ | ⟨op, rest, -, -, -, h⟩ :=
    hostMove_next h
  · exact .of_block .stay
  · exact .of_around (around_hostGoesOn [] s)
  · exact .of_around {}
  · exact ⟨_, around_hostGoesOn rest s, blockStep_of_exec h⟩
  · have hop : AroundMove (hostGoesOn rest s) (.next t) := h ▸ around_menuResume op _
    exact .of_around ((around_hostGoesOn rest s).trans hop.of_next)

/-- The inversion of a move. -/
theorem stepsTo_runMove {m : Move} (h : runMove m s = .next t) : StepsTo s t := by
  cases m <;> simp only [runMove, Host.Outcome.next.injEq] at h
  case rst => subst h; exact .of_block .reset
  case accept =>
    obtain rfl | ⟨i, h⟩ := acceptMove_next h
    · exact .of_block .stay
    · exact ⟨withdrawCommand s, {}, blockStep_of_exec h⟩
  case seq => exact .of_block (seqMove_next h)
  case cch => subst h; exact .of_block (blockStep_sendStep s)
  case host => exact stepsTo_hostMove h
  case present w => subst h; exact .of_around (around_presentMove w s)
  case withdraw => subst h; exact .of_around (around_withdrawMove s)
  case selectRbuf i => subst h; exact .of_around {}
  case complete status data => subst h; exact .of_block (blockStep_completeAction status data s)
  case dropStop => subst h; exact .of_block (blockStep_dropStop s)
  case arrive b => subst h; exact .of_block (blockStep_arrive b s)
  case room => subst h; exact .of_around {}
  case full => subst h; exact .of_around {}
  case tick => subst h; exact .of_around (around_tickCallback s)
  case mainLoop => subst h; exact .of_around (around_mainLoopCall s)
  case latch v => subst h; exact .of_around {}
  case pokeTxn w => exact .of_block (pokeTxnMove_next h)
  case pokeData b =>
    obtain ⟨hp, rfl⟩ := pokeDataMove_next h
    exact .of_block (.pokeData b hp)

/-- The inversion of a step of the device. -/
theorem stepsTo_step (h : step s = .next t) : StepsTo s t := by
  obtain ⟨u, haround, hblock⟩ := stepsTo_runMove h
  exact ⟨u, (around_nextMove s).trans haround, hblock⟩

end Sys2Proof.Proofs
end

section
/-! PROOFS. The configuration (O45) and the event log (O43): what each operation of the block does to them. -/

namespace Sys2Proof.Proofs

open Sys2Proof.Machine Sys2Proof.Laws

variable {s t u : State}

/-- The configuration stays, and at most one event is recorded, after those before it. -/
structure Records (s t : State) : Prop where
  cfg : t.cfg = s.cfg
  log : t.evlog = s.evlog ∨ ∃ e, t.evlog = s.evlog ++ [e]

theorem Records.silent (hc : t.cfg = s.cfg) (hl : t.evlog = s.evlog) : Records s t := ⟨hc, .inl hl⟩

theorem Records.event {e : Event} (hc : t.cfg = s.cfg) (hl : t.evlog = s.evlog ++ [e]) : Records s t := ⟨hc, .inr ⟨e, hl⟩⟩

theorem records_pollAgain (s : State) : Records s (pollAgain s) := by
  obtain ⟨-, h⟩ | ⟨l, -, -, h⟩ | ⟨l, -, -, h⟩ := pollAgain_cases s <;> rw [h] <;> exact .silent rfl rfl

theorem records_finish_storeByte (s : State) : Records s (finish (storeByte s)) := by
  obtain ⟨-, h⟩ | ⟨-, h⟩ := finish_cases (storeByte s) <;> rw [h]
  · exact .event rfl rfl
  · exact .silent rfl rfl

theorem records_controlStep {cw : ControlWord} (h : ControlStep cw s t) : Records s t := by
  cases h with
  | poll => exact records_pollAgain s
  | fail => exact .silent rfl rfl
  | poke =>
    obtain ⟨data, poked, idx, h⟩ := readyData_frame cw s
    rw [h]
    exact .event rfl rfl
  | done => exact records_finish_storeByte s
  | _ => exact .event rfl rfl

theorem records_pollByte (echo : Bool) (b : Byte) (rest : List Byte) (s : State) :
    Records s (pollByte echo b rest (beginCommand .pollchar s)) := by
  cases echo <;> exact .event rfl rfl

theorem records_commandStep {i : Instr} (h : CommandStep s i t) : Records s t := by
  cases h with
  | readreg => exact .event rfl rfl
  | pollByte => exact records_pollByte _ _ _ s
  | _ => exact .silent rfl rfl

theorem records_blockStep (h : BlockStep s t) : Records s t := by
  cases h with
  | command h => exact records_commandStep h
  | control h => exact records_controlStep h
  | push | pushLast | complete => exact .event rfl rfl
  | _ => exact .silent rfl rfl

theorem records_step (h : step s = .next t) : Records s t := by
  obtain ⟨u, haround, hblock⟩ := stepsTo_step h
  have hrec := records_blockStep hblock
  exact ⟨hrec.cfg.trans haround.cfg, haround.evlog ▸ hrec.log⟩

/-- Settles O43: around the block nothing is recorded, and an operation of the block records one event at most. -/
theorem eventLogGrowsByAtMostOne : Obligations.EventLogGrowsByAtMostOne := fun _ _ h => (records_step h).log

/-- Settles O45: neither a change around the block nor an operation of the block touches the record. -/
theorem configurationNeverChanges : Obligations.ConfigurationNeverChanges := fun _ _ h => (records_step h).cfg

end Sys2Proof.Proofs
end

section
/-! PROOFS. The invariant (O40): one lemma for each operation that moves what the invariant speaks of, then a step. -/

namespace Sys2Proof.Proofs

open Sys2Proof.Machine Sys2Proof.Laws

variable {s t : State}

/-! ## The parts of the invariant -/

theorem busy_eq_false {s : State} (h : busy s = false) : s.seq.ph = .idle ∧ s.cch.cph = .idle := by
  simpa [busy] using h

theorem cch_idle_of_inv (hi : State.Inv s) (hp : s.seq.ph ≠ .idle) : s.cch.cph = .idle :=
  hi.exclusive.resolve_left hp

theorem seq_idle_of_inv (hi : State.Inv s) (hc : s.cch.cph ≠ .idle) : s.seq.ph = .idle :=
  hi.exclusive.resolve_right hc

theorem queueOk_of_idle (hc : s.cch.cph = .idle) (hq : s.cch.cq = []) : queueOk s := by
  simpa [queueOk, hc] using hq

theorem cq_nil_of_inv (hi : State.Inv s) (hc : s.cch.cph = .idle) : s.cch.cq = [] := by
  simpa [queueOk, hc] using hi.queue

/-- While CCH stays idle its queue condition says nothing about the port. -/
theorem queueOk_of_cch_eq (hi : State.Inv s) (hc : s.cch.cph = .idle) (ht : t.cch = s.cch) : queueOk t :=
  queueOk_of_idle (ht ▸ hc) (ht ▸ cq_nil_of_inv hi hc)

theorem filledBelow_zero (m : Memory) : filledBelow m 0 := nofun

/-- A store at the end of the filled part makes it one longer. -/
theorem filledBelow_write {m : Memory} {n : Nat} (h : filledBelow m n) (v : Byte) :
    filledBelow (Memory.write m n v) (n + 1) := by
  intro i hi
  by_cases hn : i = n
  · simp [hn]
  · rw [memory_read_write_other m v hn]
    exact h i (by omega)

/-- `IDX + 1` does not wrap below `CNT` where a byte is still to come (R107(b)). -/
theorem toNat_succ_of_not_last {idx cnt : Byte} (hlt : idx < cnt) (hl : isLast idx cnt = false) :
    (idx + 1).toNat = idx.toNat + 1 ∧ idx + 1 < cnt := by
  simp only [isLast, beq_eq_false_iff_ne] at hl
  bv_omega

/-- A submit of the action SEQ's new phase waits for begins a proper wait. -/
theorem seqWaiting_submit {cw : ControlWord} (hwf : s.cfg.wf = true) (hc : s.seq.cnt ≠ 0) (hr : s.seq.res = .none)
    (hv : s.port.resValid = false) (ha : inFlight s.seq = some (actionOf cw s.bus.data)) : SeqWaiting (submit cw s) where
  count := hc
  noResult := hr
  notValid := hv
  handshake := .inl ⟨rfl, ha.symm⟩
  polls _ hl := timeoutPolls_pos_of_wf hwf hl

/-! ## SEQ -/

theorem inv_abort (hi : State.Inv s) (hp : s.seq.ph ≠ .idle) (r : Reason) (n : Nat) :
    State.Inv (abort r { s with seq.polls := n }) :=
  { hi with
    exclusive := .inl rfl
    waiting := fun h => absurd rfl h
    index := nofun
    result := nofun
    queue := queueOk_of_cch_eq hi (cch_idle_of_inv hi hp) rfl }

theorem inv_pollAgain (hi : State.Inv s) (hp : s.seq.ph ≠ .idle) : State.Inv (pollAgain s) := by
  obtain ⟨-, h⟩ | ⟨l, hl, hlt, h⟩ | ⟨l, -, -, h⟩ := pollAgain_cases s <;> rw [h]
  · exact hi
  · have hbound : ∀ k ∈ s.cfg.timeoutPolls, s.seq.polls + 1 < k := fun k hk => by
      obtain rfl : l = k := by simpa [hl] using hk
      exact hlt
    exact { hi with waiting := fun h => { hi.waiting h with polls := hbound } }
  · exact inv_abort hi hp .timeout _

theorem inv_poke (hi : State.Inv s) (hp : s.seq.ph = .idle) (cw : ControlWord) :
    State.Inv (submit cw (readyData cw s)) := by
  obtain ⟨data, poked, idx, h⟩ := readyData_frame cw s
  rw [h]
  exact { hi with waiting := fun h => absurd hp h }

/-- A success action before the data bytes submits what its new phase waits for. -/
theorem inv_submit {cw : ControlWord} {p : Phase} {i data : Byte} {poked : Bool} (hi : State.Inv s)
    (hp : s.seq.ph ≠ .idle) (h0 : p = .wData → i = 0)
    (ha : inFlight { s.seq with ph := p, idx := i } = some (actionOf cw data)) :
    State.Inv (submit cw { s with
      seq := { s.seq with ph := p, idx := i }, bus := { s.bus with data := data, dataPoked := poked } }) := by
  have hw := hi.waiting hp
  have hc := cch_idle_of_inv hi hp
  exact { hi with
    exclusive := .inr hc
    waiting := fun _ => seqWaiting_submit hi.params hw.count hw.noResult hw.notValid ha
    index := fun h => by
      obtain rfl := h0 h
      exact ⟨toNat_pos_of_ne_zero hw.count, filledBelow_zero _⟩ }

theorem index_lt_of_inv (hi : State.Inv s) (hp : s.seq.ph = .wData) : s.seq.idx.toNat < countMaxHere := by
  have hlt : s.seq.idx.toNat < s.seq.cnt.toNat := (hi.index hp).1
  have := s.seq.cnt.isLt
  unfold countMaxHere
  omega

theorem inv_nextByte (hi : State.Inv s) (hp : s.seq.ph = .wData) (hl : isLast s.seq.idx s.seq.cnt = false) :
    State.Inv (nextByte (storeByte s)) := by
  have hph : s.seq.ph ≠ .idle := by simp [hp]
  have hw := hi.waiting hph
  obtain ⟨hlt, hfilled⟩ := hi.index hp
  obtain ⟨hsucc, hlt'⟩ := toNat_succ_of_not_last hlt hl
  have ha : inFlight { s.seq with idx := s.seq.idx + 1 } =
      some (actionOf (rxword (s.seq.idx + 1) s.seq.cnt) s.bus.data) := by
    simp [inFlight, hp, actionOf_rxword _ _ s.bus.data]
  exact { hi with
    rbuf := memory_wf_storeByte s (index_lt_of_inv hi hp) hi.rbuf
    waiting := fun _ => seqWaiting_submit hi.params hw.count hw.noResult hw.notValid ha
    index := fun _ => ⟨hlt', hsucc ▸ filledBelow_write hfilled _⟩
    result := fun h => absurd (hw.noResult.symm.trans h) nofun }

theorem inv_finish (hi : State.Inv s) (hp : s.seq.ph = .wData) (hl : isLast s.seq.idx s.seq.cnt = true) :
    State.Inv (finish (storeByte s)) := by
  have hph : s.seq.ph ≠ .idle := by simp [hp]
  have hlast := (isLast_iff (hi.waiting hph).count).mp hl
  have hall : filledBelow (storeByte s).seq.rbuf s.seq.cnt.toNat := hlast ▸ filledBelow_write (hi.index hp).2 _
  have hrbuf := memory_wf_storeByte s (index_lt_of_inv hi hp) hi.rbuf
  have hok : State.Inv (setOk (storeByte s)) :=
    { hi with
      rbuf := hrbuf
      exclusive := .inl rfl
      waiting := fun h => absurd rfl h
      index := nofun
      result := fun _ => hall
      queue := queueOk_of_cch_eq hi (cch_idle_of_inv hi hph) rfl }
  obtain ⟨-, h⟩ | ⟨-, h⟩ := finish_cases (storeByte s) <;> rw [h]
  · exact { hok with waiting := fun h => absurd rfl h }
  · exact hok

theorem inv_control {cw : ControlWord} (hi : State.Inv s) (h : ControlStep cw s t) : State.Inv t := by
  cases h with
  | poll hp _ => exact inv_pollAgain hi hp
  | fail hp _ => exact inv_abort hi hp .protocolError s.seq.polls
  | poke hp => exact inv_poke hi hp cw
  | slaw hp _ => exact inv_submit (s := s) hi (by simp [hp]) nofun rfl
  | reg hp _ => exact inv_submit (s := s) hi (by simp [hp]) nofun rfl
  | rstart hp _ => exact inv_submit (s := s) hi (by simp [hp]) nofun rfl
  | slar hp _ => exact inv_submit (s := s) hi (by simp [hp]) nofun rfl
  | data hp _ => exact inv_submit (s := s) hi (by simp [hp]) (fun _ => rfl) (congrArg some (actionOf_rxword _ _ _).symm)
  | byte hp _ hl _ => exact inv_nextByte hi hp hl
  | done hp _ hl _ => exact inv_finish hi hp hl

/-! ## The host commands -/

theorem inv_acceptReadreg (hi : State.Inv s) (hb : busy s = false) (sa ra : Byte) {count : Byte} (hc : count ≠ 0) :
    State.Inv (acceptReadreg sa ra count s) :=
  { hi with
    exclusive := .inr (busy_eq_false hb).2
    waiting := fun _ => seqWaiting_submit (cw := .start) (s := setPhase .wStart { beginCommand .readreg s with
      seq := { s.seq with sa := sa, ra := ra, cnt := count, res := .none, idx := 0 } }) hi.params hc rfl rfl rfl
    index := nofun
    result := nofun
    queue := queueOk_of_cch_eq hi (busy_eq_false hb).2 rfl }

theorem inv_pollNothing (hi : State.Inv s) (hb : busy s = false) :
    State.Inv (pollNothing (beginCommand .pollchar s)) := by
  obtain ⟨hp, hc⟩ := busy_eq_false hb
  have hq := cq_nil_of_inv hi hc
  exact { hi with waiting := fun h => absurd hp h, queue := queueOk_of_idle hc hq }

theorem inv_pollByte (hi : State.Inv s) (hb : busy s = false) (echo : Bool) {b : Byte} {rest : List Byte}
    (hrx : s.serial.rxq = b :: rest) : State.Inv (pollByte echo b rest (beginCommand .pollchar s)) := by
  obtain ⟨hp, hc⟩ := busy_eq_false hb
  have hq := cq_nil_of_inv hi hc
  have hlen : ∀ d ∈ s.cfg.rxqDepth, rest.length ≤ d := fun d hd =>
    (Nat.le_succ _).trans (by simpa [hrx] using hi.rxq d hd)
  cases echo with
  | false =>
    exact { hi with waiting := fun h => absurd hp h, queue := queueOk_of_idle hc hq, rxq := hlen }
  | true =>
    exact { hi with
      exclusive := .inl hp
      waiting := fun h => absurd hp h
      queue := ⟨List.cons_ne_nil _ _, List.suffix_refl _, rfl⟩
      rxq := hlen }

theorem inv_beginWrite (hi : State.Inv s) (hb : busy s = false) (b : Byte) :
    State.Inv (beginSend .write b [b] (beginCommand .writechar s)) :=
  have hp := (busy_eq_false hb).1
  { hi with exclusive := .inl hp, waiting := fun h => absurd hp h, queue := ⟨rfl, rfl⟩ }

theorem inv_command {i : Instr} (hi : State.Inv s) (h : CommandStep s i t) : State.Inv t := by
  cases h with
  | held => exact hi
  | readreg hb hc => exact inv_acceptReadreg hi hb _ _ hc
  | pollNothing hb _ => exact inv_pollNothing hi hb
  | pollByte hb hq => exact inv_pollByte hi hb _ hq
  | writechar hb => exact inv_beginWrite hi hb _
  | expand _ => exact { hi with waiting := fun h => { hi.waiting h with } }

/-! ## The other agents -/

theorem inv_reset (hi : State.Inv s) : State.Inv (resetBlock s) :=
  { hi with
    rbuf := memory_wf_reset
    exclusive := .inl rfl
    waiting := fun h => absurd rfl h
    index := nofun
    result := nofun
    queue := rfl }

/-- With the head pushed the rest of the queue is still an end of what the phase sends; a WRITECHAR has no rest. -/
theorem inv_push (hi : State.Inv s) {b : Byte} {rest : List Byte} (hc : s.cch.cph ≠ .idle) (hq : s.cch.cq = b :: rest)
    (hr : rest ≠ []) : State.Inv { pushByte b s with cch.cq := rest } := by
  have hqueue : queueOk { pushByte b s with cch.cq := rest } := by
    have hold := hi.queue
    cases hph : s.cch.cph with
    | idle => exact absurd hph hc
    | echo =>
      simp only [queueOk, hph, hq] at hold
      obtain ⟨-, hsuffix, hv⟩ := hold
      simpa [queueOk, hph] using ⟨hr, (List.suffix_cons b rest).trans hsuffix, hv⟩
    | write =>
      simp only [queueOk, hph, hq, List.cons.injEq] at hold
      exact absurd hold.1.2 hr
  exact { hi with waiting := fun h => absurd (seq_idle_of_inv hi hc) h, queue := hqueue }

theorem inv_endSend (hi : State.Inv s) (hc : s.cch.cph ≠ .idle) (b : Byte) : State.Inv (endSend (pushByte b s)) :=
  { hi with exclusive := .inr rfl, waiting := fun h => absurd (seq_idle_of_inv hi hc) h, queue := rfl }

theorem inv_answered (hi : State.Inv s) (a : Machine.Action) (status data : Byte) :
    State.Inv (answered a status data s) :=
  { hi with waiting := fun h => { hi.waiting h with handshake := .inr ⟨rfl, rfl⟩ } }

/-- SEQ never awaits a CW_STOP. -/
theorem inFlight_ne_stop (q : Seq) : inFlight q ≠ some .stop := by
  unfold inFlight rxword
  cases q.ph <;> simp
  split <;> simp [actionOf]

theorem inv_dropStop (hi : State.Inv s) (ha : s.bus.pending = some .stop) :
    State.Inv { s with bus.pending := none } := by
  have hidle : s.seq.ph = .idle := by
    by_contra hp
    obtain ⟨-, hflight⟩ | ⟨-, hnone⟩ := (hi.waiting hp).handshake
    · exact inFlight_ne_stop _ (hflight.symm.trans ha)
    · exact absurd (hnone.symm.trans ha) nofun
  exact { hi with waiting := fun h => absurd hidle h }

theorem inv_arrive (hi : State.Inv s) (b : Byte) (hroom : rxqHasRoom s = true) :
    State.Inv { s with serial.rxq := s.serial.rxq ++ [b] } := by
  have hlen : ∀ d ∈ s.cfg.rxqDepth, (s.serial.rxq ++ [b]).length ≤ d := by
    intro d hd
    obtain hd : s.cfg.rxqDepth = some d := hd
    simpa [rxqHasRoom, hd] using hroom
  exact { hi with waiting := fun h => { hi.waiting h with }, rxq := hlen }

theorem inv_pokeData (hi : State.Inv s) (hp : s.seq.ph = .idle) (b : Byte) : State.Inv (pokeData b s) :=
  { hi with waiting := fun h => absurd hp h }

/-! ## A step -/

/-- Nothing the invariant speaks of has moved but the menu, which has stayed legal. -/
theorem inv_around (hi : State.Inv s) (h : Around s t) : State.Inv t := by
  have hlegal : MenuLegal t.host := h.menu ⟨hi.entry, hi.stopped⟩
  have hwaiting : SeqWaiting s → SeqWaiting t := fun hw =>
    ⟨h.seq ▸ hw.count, h.seq ▸ hw.noResult, h.resValid ▸ hw.notValid, h.seq ▸ h.bus ▸ hw.handshake,
      h.seq ▸ h.cfg ▸ hw.polls⟩
  have hqueue : queueOk t := by
    have hold := hi.queue
    rw [queueOk] at hold ⊢
    rwa [h.cch, h.cfg, h.resValid]
  exact {
    params := h.cfg ▸ hi.params
    rbuf := h.seq ▸ hi.rbuf
    exclusive := h.seq ▸ h.cch ▸ hi.exclusive
    waiting := fun hp => hwaiting (hi.waiting (h.seq ▸ hp))
    index := h.seq ▸ hi.index
    result := h.seq ▸ hi.result
    queue := hqueue
    rxq := h.rxq ▸ h.cfg ▸ hi.rxq
    entry := hlegal.entry
    stopped := hlegal.stopped }

theorem inv_block (hi : State.Inv s) (h : BlockStep s t) : State.Inv t := by
  cases h with
  | stay => exact hi
  | command h => exact inv_command hi h
  | control h => exact inv_control hi h
  | reset => exact inv_reset hi
  | push hq hr hc => exact inv_push hi hc hq hr
  | pushLast b hc => exact inv_endSend hi hc b
  | complete status data _ => exact inv_answered hi _ status data
  | dropStop ha => exact inv_dropStop hi ha
  | arrive b hroom => exact inv_arrive hi b hroom
  | pokeData b hp => exact inv_pokeData hi hp b

/-- Settles O40: a step is a change around the block and one step of the block, and each keeps the invariant. -/
theorem stepKeepsInvariant : Obligations.StepKeepsInvariant := by
  intro s t hi h
  obtain ⟨u, haround, hblock⟩ := stepsTo_step h
  exact inv_block (inv_around hi haround) hblock

end Sys2Proof.Proofs
end

section
/-! PROOFS. What a control word means where SEQ does not await it (O24, O25), that nothing faults under the invariant (O41), and a
busy block (O16). -/

namespace Sys2Proof.Proofs

open Sys2Proof.Machine Sys2Proof.Laws

variable {s t : State}

/-! ## A control word SEQ does not await -/

/-- Where SEQ does not await it, a control word is a write of `TXN` (log 4). -/
theorem exec_of_not_awaited {cw : ControlWord} (h : awaited s.seq ≠ some cw) : exec cw.instr s = pokeWord cw s := by
  cases cw with
  | start => exact if_neg h
  | rstart => exact if_neg h
  | tx =>
    cases hp : s.seq.ph with
    | wSlaw | wReg | wSlar => simp [awaited, hp] at h
    | idle | wStart | wRstart | wData => simp [ControlWord.instr, exec, execCwTx, hp]
  | rxAck => exact if_neg h
  | rxNack => exact if_neg h
  | stop => rfl

/-- The control word SEQ awaits is SEQ's own step. -/
theorem exec_of_awaited {cw : ControlWord} (h : awaited s.seq = some cw) : exec cw.instr s = seqMove s := by
  simp [seqMove, h]

theorem awaited_ne_stop (q : Seq) : awaited q ≠ some .stop := by
  unfold awaited rxword
  cases q.ph <;> simp
  split <;> simp

/-- While SEQ is idle a control word is a submit of what `DATA` then holds. -/
theorem exec_control_idle (hp : s.seq.ph = .idle) (cw : ControlWord) :
    exec cw.instr s = .next (submit cw (readyData cw s)) := by
  have hnone : awaited s.seq ≠ some cw := by simp [awaited_eq_none.mpr hp]
  rw [exec_of_not_awaited hnone, pokeWord, if_pos hp]

/-- Settles O24: an idle SEQ awaits no control word, so each is a write of `TXN`; `readyData` tells the two cases apart. -/
theorem idleControlWordIsSubmit : Obligations.IdleControlWordIsSubmit := by
  intro s hp
  refine ⟨fun cw hcw => ?_, fun hd hpoked => ?_⟩
  · have hready : readyData cw s = s := if_neg fun ⟨htx, hd, hpoked⟩ => by simp [htx, hd, hpoked] at hcw
    rw [exec_control_idle hp, hready]
    rfl
  · have hready : readyData .tx s = pokeData (Config.freeByte s.freeIdx) (drawn s) := if_pos ⟨rfl, hd, hpoked⟩
    exact (exec_control_idle hp .tx).trans (by rw [hready]; rfl)

/-- Settles O25: a control word SEQ does not await is a poke, and a poke is refused unless SEQ is idle. -/
theorem foreignControlWordRefused : Obligations.ForeignControlWordRefused := by
  intro s cw hp
  refine ⟨fun h => ?_, awaited_ne_stop s.seq, fun _ => if_neg hp, fun _ => if_neg hp⟩
  rw [exec_of_not_awaited h]
  exact if_neg hp

/-! ## No fault -/

theorem pokeWord_ne_fault (cw : ControlWord) (s : State) (f : Fault) : pokeWord cw s ≠ .fault f := by
  unfold pokeWord
  split <;> nofun

/-- SEQ's step does not fault where the index of a byte to be stored is an entry of `RBUF`. -/
theorem seqMove_ne_fault (hi : s.seq.ph = .wData → s.seq.idx.toNat < s.cfg.countMax) (f : Fault) :
    seqMove s ≠ .fault f := by
  by_cases hp : s.seq.ph = .idle
  · rw [seqMove_idle hp]; nofun
  · rw [seqMove_waiting hp hi]; nofun

theorem exec_control_ne_fault (hi : s.seq.ph = .wData → s.seq.idx.toNat < s.cfg.countMax) (cw : ControlWord) (f : Fault) :
    exec cw.instr s ≠ .fault f := by
  by_cases h : awaited s.seq = some cw
  · rw [exec_of_awaited h]
    exact seqMove_ne_fault hi f
  · rw [exec_of_not_awaited h]
    exact pokeWord_ne_fault cw s f

theorem exec_ne_fault (hi : s.seq.ph = .wData → s.seq.idx.toNat < s.cfg.countMax) (i : Instr) (f : Fault) :
    exec i s ≠ .fault f := by
  cases i with
  | cwStart => exact exec_control_ne_fault hi .start f
  | cwRstart => exact exec_control_ne_fault hi .rstart f
  | cwTx => exact exec_control_ne_fault hi .tx f
  | cwRxAck => exact exec_control_ne_fault hi .rxAck f
  | cwRxNack => exact exec_control_ne_fault hi .rxNack f
  | cwStop => exact exec_control_ne_fault hi .stop f
  | readreg | pollchar | writechar | writestring | writeline => nofun

theorem hostMove_ne_fault (hi : s.seq.ph = .wData → s.seq.idx.toNat < s.cfg.countMax) (f : Fault) :
    hostMove s ≠ .fault f := by
  unfold hostMove
  split
  · nofun
  · split
    · nofun
    · unfold hostIssue
      split
      · nofun
      · exact exec_ne_fault (s := hostGoesOn _ s) hi _ f
    · exact (around_menuResume _ _).ne_fault f

theorem runMove_ne_fault (hi : s.seq.ph = .wData → s.seq.idx.toNat < s.cfg.countMax) (m : Move) (f : Fault) :
    runMove m s ≠ .fault f := by
  cases m with
  | accept =>
    change acceptMove s ≠ _
    unfold acceptMove
    split
    · split
      · exact exec_ne_fault (s := withdrawCommand s) hi _ f
      · nofun
    · nofun
  | seq => exact seqMove_ne_fault hi f
  | host => exact hostMove_ne_fault hi f
  | pokeTxn w =>
    change pokeTxnMove w s ≠ _
    unfold pokeTxnMove
    split
    · split
      · exact exec_ne_fault hi _ f
      · nofun
    · nofun
  | pokeData b =>
    change pokeDataMove b s ≠ _
    unfold pokeDataMove
    split <;> nofun
  | _ => nofun

/-- Settles O41: only a store outside `RBUF` faults, and under the invariant `IDX` is below `CNT`, which is at most 255. -/
theorem invariantExcludesFaults : Obligations.InvariantExcludesFaults := by
  intro s f hi
  have hnext : State.Inv (nextMove s).2 := inv_around hi (around_nextMove s)
  refine runMove_ne_fault (fun hp => ?_) (nextMove s).1 f
  rw [countMax_of_wf hnext.params]
  exact index_lt_of_inv hnext hp

/-! ## A busy block -/

/-- Settles O16: each of the three commands tests `BUSY` first, and so does the acceptance. -/
theorem busyBlockIgnoresCommands : Obligations.BusyBlockIgnoresCommands := by
  intro s hb
  have hready : cmdReady s = false := by rw [cmdReady, hb]; rfl
  refine ⟨hready, ?_, fun sa ra count => ?_, fun echo => ?_, fun b => ?_⟩
  · simp [acceptMove, hready]
  · simp [exec, execReadreg, hb]
  · simp [exec, execPollchar, hb]
  · simp [exec, execWritechar, hb]

end Sys2Proof.Proofs
end

section
/-! PROOFS. The instruction a step fetches (O34, O35), and the state at reset (O38). -/

namespace Sys2Proof.Proofs

open Sys2Proof.Machine Sys2Proof.Laws

variable {s : State}

/-- A step with a script runs its first move. -/
theorem step_of_script {m : Move} {rest : List Move} (hs : s.script = m :: rest) :
    step s = runMove m { s with script := rest } := by
  rw [step, stepOnce, nextMove, hs]

/-- An idle block takes the command on its port and executes it. -/
theorem acceptMove_ok {i : Instr} (hv : s.port.cmdValid = true) (hb : busy s = false) (hd : decodeCommand s.port.cmd = .ok i) :
    acceptMove s = exec i (withdrawCommand s) := by
  simp [acceptMove, hv, cmdReady, hb, hd]

/-- An idle SEQ executes the control word that is written into `TXN`. -/
theorem pokeTxnMove_ok {w : Byte} {cw : ControlWord} (hp : s.seq.ph = .idle) (hd : decodeControl s.cfg.cwCode w = .ok cw) :
    pokeTxnMove w s = exec cw.instr s := by
  simp [pokeTxnMove, hp, hd]

/-- A host that does not wait executes the next of its operations that has no command word. -/
theorem hostMove_exec {i : Instr} {prog : List HostOp} (hw : hostWaits s = false) (hprog : s.host.prog = .issue i :: prog)
    (hi : commandWord i = none) : hostMove s = exec i (hostGoesOn prog s) := by
  simp [hostMove, hw, hprog, hostIssue, hi]

/-- Settles O34: each of the four fetch paths is the agent's move at the head of the script. -/
theorem stepRunsFetchedInstruction : Obligations.StepRunsFetchedInstruction := by
  intro s rest
  refine ⟨fun i hs hv hb hd => ?_, fun w cw hs hp hd => ?_, fun cw hs ha => ?_, fun i prog hs hw hprog hi => ?_⟩ <;>
    rw [step_of_script hs]
  · exact acceptMove_ok hv hb hd
  · exact pokeTxnMove_ok hp hd
  · exact (exec_of_awaited (s := { s with script := rest }) ha).symm
  · exact hostMove_exec hw hprog hi

theorem decodeTableWord_command {w : Nat} {i : Instr} (h : decodeTableWord 32 w = some i) :
    decodeCommand (BitVec.ofNat 32 w) = .ok i := by
  change (decodeCommand (BitVec.ofNat 32 w)).toOption = some i at h
  cases hd : decodeCommand (BitVec.ofNat 32 w) <;> simp_all [Except.toOption]

theorem decodeTableWord_control {w : Nat} {i : Instr} (h : decodeTableWord 8 w = some i) :
    ∃ cw, decodeControl .default (BitVec.ofNat 8 w) = .ok cw ∧ cw.instr = i := by
  change (decodeControl .default (BitVec.ofNat 8 w)).toOption.map ControlWord.instr = some i at h
  cases hd : decodeControl .default (BitVec.ofNat 8 w) <;> simp_all [Except.toOption]

/-- Settles O35: the placed word stands where O34's acceptance or poke of `TXN` fetches it. -/
theorem placedWordRunsNext : Obligations.PlacedWordRunsNext := by
  intro s w i
  refine ⟨fun h hb => ?_, fun h hp hc => ?_⟩
  · obtain ⟨haccept, -⟩ := stepRunsFetchedInstruction (s.withFetchWord 32 w) s.script
    exact haccept i rfl rfl hb (decodeTableWord_command h)
  · obtain ⟨cw, hd, rfl⟩ := decodeTableWord_control h
    obtain ⟨-, hpoke, -⟩ := stepRunsFetchedInstruction (s.withFetchWord 8 w) s.script
    exact hpoke (BitVec.ofNat 8 w) cw rfl hp (hc ▸ hd)

/-- Settles O38: each value is the one the fields of `State.reset` are given. -/
theorem resetStateValues : Obligations.ResetStateValues :=
  ⟨rfl, rfl, rfl, rfl, rfl, rfl, rfl, rfl, rfl, rfl, rfl, rfl, rfl, rfl, rfl, rfl⟩

end Sys2Proof.Proofs
end

section
/-! PROOFS. The block's moves and LATCH (O46): each meaning commutes with a change of the latch. -/

namespace Sys2Proof.Proofs

open Sys2Proof.Machine Sys2Proof.Laws

/-- The outcome with another value in the latch of its next state. -/
def withLatch (v : Byte) : Host.Outcome State Fault Refusal → Host.Outcome State Fault Refusal
  | .next t => .next (setLatch v t)
  | .fault f => .fault f
  | .refused r => .refused r

/-- An operation that neither reads nor writes the latch. -/
def LatchBlind (k : State → Host.Outcome State Fault Refusal) : Prop := ∀ s v, k (setLatch v s) = withLatch v (k s)

/-- A test that does not look at the latch goes the same way whatever the latch holds. -/
theorem latchBlind_ite {p : State → Prop} [∀ s, Decidable (p s)] {k l : State → Host.Outcome State Fault Refusal}
    (hp : ∀ s v, p (setLatch v s) ↔ p s) (hk : LatchBlind k) (hl : LatchBlind l) :
    LatchBlind fun s => if p s then k s else l s := by
  intro s v
  by_cases h : p s
  · simpa [h, hp] using hk s v
  · simpa [h, hp] using hl s v

/-- An operation that always answers next, and commutes with a change of the latch. -/
theorem latchBlind_next {g : State → State} (hg : ∀ s v, g (setLatch v s) = setLatch v (g s)) :
    LatchBlind fun s => .next (g s) :=
  fun s v => congrArg Host.Outcome.next (hg s v)

/-! ## SEQ -/

theorem pollAgain_setLatch (s : State) (v : Byte) : pollAgain (setLatch v s) = setLatch v (pollAgain s) := by
  unfold pollAgain
  rw [setLatch_cfg, setLatch_seq]
  split
  · rfl
  · split <;> rfl

theorem finish_setLatch (s : State) (v : Byte) : finish (setLatch v s) = setLatch v (finish s) := by
  unfold finish
  rw [setLatch_cfg]
  split <;> rfl

theorem readyData_setLatch (cw : ControlWord) (s : State) (v : Byte) :
    readyData cw (setLatch v s) = setLatch v (readyData cw s) := by
  unfold readyData
  rw [setLatch_bus]
  split <;> rfl

theorem latchBlind_awaitDone {k : State → Host.Outcome State Fault Refusal} (hk : LatchBlind k) :
    LatchBlind (awaitDone k) :=
  latchBlind_ite (fun _ _ => Iff.rfl) hk (latchBlind_next pollAgain_setLatch)

theorem latchBlind_expect (st : StatusName) {k : State → Host.Outcome State Fault Refusal} (hk : LatchBlind k) :
    LatchBlind (expect st k) :=
  latchBlind_ite (fun _ _ => Iff.rfl) hk fun _ _ => rfl

theorem latchBlind_pokeWord (cw : ControlWord) : LatchBlind (pokeWord cw) :=
  latchBlind_ite (fun _ _ => Iff.rfl) (latchBlind_next fun s v => congrArg (submit cw) (readyData_setLatch cw s v))
    fun _ _ => rfl

theorem latchBlind_completeRstart : LatchBlind completeRstart :=
  latchBlind_ite (fun _ _ => Iff.rfl) (latchBlind_expect _ fun _ _ => rfl) fun _ _ => rfl

theorem latchBlind_completeData (last : Bool) : LatchBlind (completeData last) := by
  refine latchBlind_expect _ (latchBlind_ite (fun _ _ => Iff.rfl) (latchBlind_next fun s v => ?_) fun _ _ => rfl)
  cases last with
  | false => rfl
  | true => exact finish_setLatch (storeByte s) v

theorem latchBlind_execCwTx : LatchBlind execCwTx := by
  intro s v
  unfold execCwTx
  rw [setLatch_seq]
  split
  · exact latchBlind_awaitDone (latchBlind_expect _ fun _ _ => rfl) s v
  · exact latchBlind_awaitDone (latchBlind_expect _ fun _ _ => rfl) s v
  · exact latchBlind_awaitDone (latchBlind_expect _ fun _ _ => rfl) s v
  all_goals exact latchBlind_pokeWord .tx s v

theorem latchBlind_execControl (cw : ControlWord) : LatchBlind (exec cw.instr) := by
  cases cw with
  | start =>
    exact latchBlind_ite (fun _ _ => Iff.rfl) (latchBlind_awaitDone (latchBlind_expect _ fun _ _ => rfl))
      (latchBlind_pokeWord _)
  | rstart =>
    exact latchBlind_ite (fun _ _ => Iff.rfl) (latchBlind_awaitDone latchBlind_completeRstart) (latchBlind_pokeWord _)
  | tx => exact latchBlind_execCwTx
  | rxAck =>
    exact latchBlind_ite (fun _ _ => Iff.rfl) (latchBlind_awaitDone (latchBlind_completeData _)) (latchBlind_pokeWord _)
  | rxNack =>
    exact latchBlind_ite (fun _ _ => Iff.rfl) (latchBlind_awaitDone (latchBlind_completeData _)) (latchBlind_pokeWord _)
  | stop => exact latchBlind_pokeWord .stop

/-! ## The host commands and CCH -/

theorem busy_setLatch (v : Byte) (s : State) : busy (setLatch v s) = busy s := rfl

theorem latchBlind_execReadreg (sa ra count : Byte) : LatchBlind (execReadreg sa ra count) := by
  intro s v
  unfold execReadreg
  rw [busy_setLatch]
  split <;> rfl

theorem pollByte_setLatch (echo : Bool) (b : Byte) (rest : List Byte) (s : State) (v : Byte) :
    pollByte echo b rest (setLatch v s) = setLatch v (pollByte echo b rest s) := by
  cases echo <;> rfl

theorem latchBlind_execPollchar (echo : Bool) : LatchBlind (execPollchar echo) := by
  intro s v
  unfold execPollchar
  rw [busy_setLatch, setLatch_serial]
  split
  · rfl
  · split
    · rfl
    · exact congrArg Host.Outcome.next (pollByte_setLatch echo _ _ (beginCommand .pollchar s) v)

theorem latchBlind_execWritechar (b : Byte) : LatchBlind (execWritechar b) := by
  intro s v
  unfold execWritechar
  rw [busy_setLatch]
  split <;> rfl

/-- No instruction reads or writes the latch. -/
theorem latchBlind_exec (i : Instr) : LatchBlind (exec i) := by
  cases i with
  | readreg sa ra count => exact latchBlind_execReadreg sa ra count
  | pollchar echo => exact latchBlind_execPollchar echo
  | writechar byte => exact latchBlind_execWritechar byte
  | writestring text => exact fun _ _ => rfl
  | writeline text => exact fun _ _ => rfl
  | cwStart => exact latchBlind_execControl .start
  | cwRstart => exact latchBlind_execControl .rstart
  | cwTx => exact latchBlind_execControl .tx
  | cwRxAck => exact latchBlind_execControl .rxAck
  | cwRxNack => exact latchBlind_execControl .rxNack
  | cwStop => exact latchBlind_execControl .stop

theorem sendStep_setLatch (s : State) (v : Byte) : sendStep (setLatch v s) = setLatch v (sendStep s) := by
  unfold sendStep
  rw [setLatch_cch, setLatch_serial]
  split
  · rfl
  · split
    · rfl
    · split
      · split <;> rfl
      · rfl

/-! ## The block's moves -/

theorem latchBlind_acceptMove : LatchBlind acceptMove := by
  refine latchBlind_ite (fun _ _ => Iff.rfl) (fun s v => ?_) fun _ _ => rfl
  rw [setLatch_port]
  split
  · exact latchBlind_exec _ (withdrawCommand s) v
  · rfl

theorem latchBlind_seqMove : LatchBlind seqMove := by
  intro s v
  unfold seqMove
  rw [setLatch_seq]
  split
  · exact latchBlind_execControl _ s v
  · rfl

/-- Settles O46: the block's moves commute with a change of the latch. -/
theorem blockIgnoresLatch : Obligations.BlockIgnoresLatch := by
  intro s t m v hm h
  have hblind : LatchBlind (runMove m) := by
    obtain rfl | rfl | rfl | rfl := hm
    · exact latchBlind_acceptMove
    · exact latchBlind_seqMove
    · exact latchBlind_next sendStep_setLatch
    · exact fun _ _ => rfl
  calc runMove m (setLatch v s) = withLatch v (runMove m s) := hblind s v
    _ = .next (setLatch v t) := by rw [h]; rfl

end Sys2Proof.Proofs
end

section
/-! PROOFS. The wire events of a READREG in which every check passes (O50): each submit and its completion are the wire events of
their action, followed along R105's list. -/

namespace Sys2Proof.Proofs

open Sys2Proof.Machine Sys2Proof.Laws

variable {c : Params} {bytes buf : List Byte} {wire : List WireEvent}

/-- A submit and its completion are on the wire as their action (R45). -/
theorem wireOf_exchange {a : Machine.Action} (ha : a ≠ .stop) (status data : Byte) (log : List Event) :
    wireOf c (.submit a :: completionEvent a status data :: log) = wireOfAction c a status data ++ wireOf c log := by
  cases a with
  | stop => exact absurd rfl ha
  | _ => rfl

/-- The outcome of a scripted READREG is `Ok` with these bytes, and its events make these wire events. -/
structure ReadsOnWire (c : Params) (out : ScriptResult × List Event) (bytes : List Byte) (wire : List WireEvent) : Prop where
  result : out.1 = .ok bytes
  wire : wireOf c out.2 = wire

/-- After the last submit nothing more is on the wire, where the STOP is implicit (R103). -/
theorem readsOnWire_nil (hstop : c.stopExplicit = false) (buf : List Byte) :
    ReadsOnWire c (runSequence c [] [] buf) buf [] := by
  constructor <;> simp [runSequence, hstop, wireOf, wireFrom]

/-- An answer that passes its check puts its action on the wire before what follows. -/
theorem readsOnWire_cons {a : Machine.Action} {e : Option StatusName} {status data : Byte}
    {ws : List (Machine.Action × Option StatusName)} {answers : List (Byte × Byte)}
    (ha : a ≠ .stop) (hpass : passes c e status = true)
    (h : ReadsOnWire c (runSequence c ws answers (if a.receives then buf ++ [data] else buf)) bytes wire) :
    ReadsOnWire c (runSequence c ((a, e) :: ws) ((status, data) :: answers) buf) bytes
      (wireOfAction c a status data ++ wire) := by
  rw [runSequence_pass hpass]
  exact ⟨h.result, by rw [wireOf_exchange ha, h.wire]⟩

/-- The expected status passes its check. -/
theorem passes_code (c : Params) (st : StatusName) : passes c (some st) (c.statusCode.code st) = true := by
  simp [passes]

/-- The data bytes are each received with ACK, the last with NACK and the implicit STOP (R101 to R103). -/
theorem readsOnWire_data (hstop : c.stopExplicit = false) (bytes : List Byte) (last : Byte) (buf : List Byte) :
    ReadsOnWire c
      (runSequence c (List.replicate bytes.length (.rxAck, some .dataRxAck) ++ [(.rxNack, some .dataRxNack)])
        (bytes.map (fun d => (c.statusCode.dataRxAck, d)) ++ [(c.statusCode.dataRxNack, last)]) buf)
      (buf ++ (bytes ++ [last])) (bytes.map (fun d => .rx d .ack) ++ [.rx last .nack, .stop]) := by
  induction bytes generalizing buf with
  | nil =>
    have hlast : [.rx last .nack, .stop] = wireOfAction c .rxNack c.statusCode.dataRxNack last ++ [] := by
      simp [wireOfAction, hstop]
    rw [hlast]
    exact readsOnWire_cons (a := .rxNack) nofun (passes_code c .dataRxNack) (readsOnWire_nil hstop (buf ++ [last]))
  | cons d bytes ih =>
    have hrest := ih (buf ++ [d])
    rw [List.append_assoc] at hrest
    exact readsOnWire_cons (a := .rxAck) nofun (passes_code c .dataRxAck) hrest

/-- Settles O50: the five submits before the data, and then the data bytes. -/
theorem healthyReadregWire : Obligations.HealthyReadregWire := by
  intro c sa ra rs bytes last hstop hrs answers
  have hrstart : passes c (if c.validateRstart then some .rstart else none) rs = true := by
    split
    · next hv => exact hrs hv ▸ passes_code c .rstart
    · rfl
  have hread : ReadsOnWire c (runReadreg c sa ra (bytes.length + 1) answers) (bytes ++ [last]) _ :=
    readsOnWire_cons nofun (passes_code c .start) <|
    readsOnWire_cons nofun (passes_code c .slawAck) <|
    readsOnWire_cons nofun (passes_code c .dataTxAck) <|
    readsOnWire_cons nofun hrstart <|
    readsOnWire_cons nofun (passes_code c .slarAck) <|
    readsOnWire_data hstop bytes last []
  exact ⟨hread.result, by simp [hread.wire, wireOfAction, txAck]⟩

end Sys2Proof.Proofs
end

section
/-! PROOFS. The decoder of command words (O1, O3, O5): what each row accepts, that a word is made of its fields, and that the
words accepted are the encoder's. -/

namespace Sys2Proof.Proofs

open Sys2Proof.Machine Sys2Proof.Laws

variable {w : CmdWord} {i : Instr}

/-! ## What the rows accept -/

theorem decodeReadreg_ok_iff :
    decodeReadreg w = .ok i ↔ cmdCount w ≠ 0 ∧ .readreg (cmdSa w) (cmdRa w) (cmdCount w) = i := by
  unfold decodeReadreg
  split <;> simp_all

theorem decodePollchar_ok_iff : decodePollchar w = .ok i ↔ w.extractLsb' 1 23 = 0 ∧ .pollchar (cmdEcho w) = i := by
  unfold decodePollchar
  split <;> simp_all

theorem decodeWritechar_ok_iff : decodeWritechar w = .ok i ↔ w.extractLsb' 8 16 = 0 ∧ .writechar (cmdRa w) = i := by
  unfold decodeWritechar
  split <;> simp_all

/-- A word is accepted when its zero field is 0 and the row of its `op` accepts it (R64, R65). -/
theorem decodeCommand_ok_iff :
    decodeCommand w = .ok i ↔ cmdZero w = 0 ∧
      (cmdOp w = 1 ∧ decodeReadreg w = .ok i ∨ cmdOp w = 2 ∧ decodePollchar w = .ok i ∨
        cmdOp w = 3 ∧ decodeWritechar w = .ok i) := by
  unfold decodeCommand
  split_ifs <;> simp_all

/-! ## A word from its fields -/

theorem encodeReadreg_of_fields (hz : cmdZero w = 0) (ho : cmdOp w = 1) :
    encodeReadreg (cmdSa w) (cmdRa w) (cmdCount w) = w := by
  apply BitVec.eq_of_toNat_eq
  rw [encodeReadreg_toNat, command_toNat w, hz, ho]
  simp

/-- `cmd[0]` as a number (R62). -/
theorem cmdEcho_toNat (w : CmdWord) : (cmdEcho w).toNat = w.toNat % 2 := by
  simpa [cmdEcho, BitVec.getLsbD] using Nat.toNat_testBit w.toNat 0

/-- With a zero field of 0 a word is its `op` and its low 24 bits (R60). -/
theorem toNat_of_op {op : BitVec 4} (hz : cmdZero w = 0) (ho : cmdOp w = op) :
    w.toNat = op.toNat * 0x10000000 + w.toNat % 0x1000000 := by
  have hzero : w.toNat / 0x1000000 % 0x10 = 0 := (toNat_field w 24 4).symm.trans (congrArg BitVec.toNat hz)
  have hop : w.toNat / 0x10000000 % 0x10 = op.toNat := (toNat_field w 28 4).symm.trans (congrArg BitVec.toNat ho)
  have := w.isLt
  omega

theorem encodePollchar_of_fields (hz : cmdZero w = 0) (ho : cmdOp w = 2) (hf : w.extractLsb' 1 23 = 0) :
    encodePollchar (cmdEcho w) = w := by
  have hop : w.toNat = 0x20000000 + w.toNat % 0x1000000 := toNat_of_op hz ho
  have hfield : w.toNat / 2 % 0x800000 = 0 := (toNat_field w 1 23).symm.trans (congrArg BitVec.toNat hf)
  apply BitVec.eq_of_toNat_eq
  rw [encodePollchar_toNat, cmdEcho_toNat]
  omega

theorem encodeWritechar_of_fields (hz : cmdZero w = 0) (ho : cmdOp w = 3) (hf : w.extractLsb' 8 16 = 0) :
    encodeWritechar (cmdRa w) = w := by
  have hop : w.toNat = 0x30000000 + w.toNat % 0x1000000 := toNat_of_op hz ho
  have hfield : w.toNat / 0x100 % 0x10000 = 0 := (toNat_field w 8 16).symm.trans (congrArg BitVec.toNat hf)
  apply BitVec.eq_of_toNat_eq
  rw [encodeWritechar_toNat, cmdRa, toNat_field]
  omega

/-! ## The words accepted are the encoder's -/

theorem wf_readreg_iff {sa ra count : Byte} : (Instr.readreg sa ra count).wf = true ↔ count ≠ 0 := by
  simp [Instr.wf, countOk]

theorem decodeCommand_encodeReadreg (sa ra : Byte) {count : Byte} (hc : count ≠ 0) :
    decodeCommand (encodeReadreg sa ra count) = .ok (.readreg sa ra count) := by
  simp_all [decodeCommand, decodeReadreg]

theorem decodeCommand_encodePollchar (echo : Bool) : decodeCommand (encodePollchar echo) = .ok (.pollchar echo) := by
  cases echo <;> rfl

theorem decodeCommand_encodeWritechar (b : Byte) : decodeCommand (encodeWritechar b) = .ok (.writechar b) := by
  simp [decodeCommand, decodeWritechar]

theorem decodeCommand_commandWord (hwf : i.wf = true) (hw : commandWord i = some w) : decodeCommand w = .ok i := by
  cases i with
  | readreg sa ra count => cases hw; exact decodeCommand_encodeReadreg sa ra (wf_readreg_iff.mp hwf)
  | pollchar echo => cases hw; exact decodeCommand_encodePollchar echo
  | writechar b => cases hw; exact decodeCommand_encodeWritechar b
  | _ => cases hw

theorem commandWord_of_decodeCommand (h : decodeCommand w = .ok i) : i.wf = true ∧ commandWord i = some w := by
  obtain ⟨hz, ⟨ho, h⟩ | ⟨ho, h⟩ | ⟨ho, h⟩⟩ := decodeCommand_ok_iff.mp h
  · obtain ⟨hc, rfl⟩ := decodeReadreg_ok_iff.mp h
    exact ⟨wf_readreg_iff.mpr hc, congrArg some (encodeReadreg_of_fields hz ho)⟩
  · obtain ⟨hf, rfl⟩ := decodePollchar_ok_iff.mp h
    exact ⟨rfl, congrArg some (encodePollchar_of_fields hz ho hf)⟩
  · obtain ⟨hf, rfl⟩ := decodeWritechar_ok_iff.mp h
    exact ⟨rfl, congrArg some (encodeWritechar_of_fields hz ho hf)⟩

/-- Settles O3: the fields of an accepted word make up the encoder's word, and the decoder reads an encoder's word back. -/
theorem decodeCommandAcceptsExactlyEncodings : Obligations.DecodeCommandAcceptsExactlyEncodings :=
  fun _ _ => ⟨commandWord_of_decodeCommand, fun ⟨hwf, hw⟩ => decodeCommand_commandWord hwf hw⟩

/-- Settles O1: the decoder evaluates on each of the ten words. -/
theorem specWordsDecode : Obligations.SpecWordsDecode :=
  ⟨rfl, rfl, rfl, rfl, rfl, rfl, rfl, rfl, rfl, rfl⟩

/-! ## Reserved words -/

/-- An `op` is one of the three of R61 to R63, or reserved. -/
theorem op_cases (op : BitVec 4) :
    op = 1 ∨ op = 2 ∨ op = 3 ∨ ((op = 0 ∨ 4 ≤ op) ∧ op ≠ 1 ∧ op ≠ 2 ∧ op ≠ 3) := by
  revert op
  decide

/-- The words that are accepted, field by field. -/
theorem exists_decodeCommand_ok_iff :
    (∃ i, decodeCommand w = .ok i) ↔ cmdZero w = 0 ∧
      (cmdOp w = 1 ∧ cmdCount w ≠ 0 ∨ cmdOp w = 2 ∧ w.extractLsb' 1 23 = 0 ∨
        cmdOp w = 3 ∧ w.extractLsb' 8 16 = 0) := by
  simp [decodeCommand_ok_iff, decodeReadreg_ok_iff, decodePollchar_ok_iff, decodeWritechar_ok_iff, exists_or]

theorem exists_decodeCommand_error_iff : (∃ e, decodeCommand w = .error e) ↔ ¬∃ i, decodeCommand w = .ok i := by
  cases decodeCommand w <;> simp

/-- Settles O5: R65's list, `op` by `op`, is what is left of the accepted words; the acceptance takes only a word that decodes. -/
theorem reservedWordRefusedWithoutEffect : Obligations.ReservedWordRefusedWithoutEffect := by
  refine ⟨fun w => ?_, fun s e he => ?_⟩
  · change _ ↔ (cmdZero w ≠ 0 ∨ cmdOp w = 0 ∨ 4 ≤ cmdOp w ∨ (cmdOp w = 1 ∧ cmdCount w = 0) ∨
      (cmdOp w = 2 ∧ _) ∨ (cmdOp w = 3 ∧ _))
    rw [exists_decodeCommand_error_iff, exists_decodeCommand_ok_iff]
    obtain ho | ho | ho | ⟨hres, h1, h2, h3⟩ := op_cases (cmdOp w)
    · simp [ho, imp_iff_not_or]
    · simp [ho, imp_iff_not_or]
    · simp [ho, imp_iff_not_or]
    · tauto
  · simp [acceptMove, he]

end Sys2Proof.Proofs
end

section
/-! PROOFS. Control words (O4), and every word of an instruction read back (O2). -/

namespace Sys2Proof.Proofs

open Sys2Proof.Machine Sys2Proof.Laws

variable {c : CwCodes} {cw : ControlWord} {i j : Instr}

/-! ## Control words -/

theorem code_injective (hc : c.values.Nodup) : Function.Injective c.code := by
  have hinj := List.inj_on_of_nodup_map (f := c.code) (l := [.start, .rstart, .tx, .rxAck, .rxNack, .stop]) hc
  have hall : ∀ cw : ControlWord, cw ∈ [ControlWord.start, .rstart, .tx, .rxAck, .rxNack, .stop] := by
    rintro (_ | _ | _ | _ | _ | _) <;> decide
  exact fun x y h => hinj (hall x) (hall y) h

theorem code_of_decodeControl {b : Byte} (h : decodeControl c b = .ok cw) : c.code cw = b := by
  unfold decodeControl at h
  split_ifs at h <;> cases h <;> exact Eq.symm ‹_›

theorem decodeControl_ne_error (c : CwCodes) (cw : ControlWord) (e : Reserved) : decodeControl c (c.code cw) ≠ .error e := by
  cases cw <;> simp only [decodeControl, CwCodes.code] <;> split_ifs <;> simp

/-- A control word is read back from its code under an injective map. -/
theorem decodeControl_code (hc : c.values.Nodup) (cw : ControlWord) : decodeControl c (c.code cw) = .ok cw := by
  cases h : decodeControl c (c.code cw) with
  | error e => exact absurd h (decodeControl_ne_error c cw e)
  | ok cw' => exact congrArg Except.ok (code_injective hc (code_of_decodeControl h))

/-- Settles O4: what decodes has that code, and under an injective map each code decodes to its own control word. -/
theorem decodeControlAcceptsExactlyCodes : Obligations.DecodeControlAcceptsExactlyCodes :=
  fun _ _ cw hc => ⟨code_of_decodeControl, fun h => h ▸ decodeControl_code hc cw⟩

/-! ## Every word of an instruction -/

theorem instr_of_controlWord (h : controlWord i = some cw) : cw.instr = i := by
  cases i <;> cases h <;> rfl

/-- The word of a well-formed instruction that has one is read back. -/
theorem decode_codeOf {k : Code} (hc : c.values.Nodup) (hwf : i.wf = true) (h : codeOf c i = some k) :
    decode c k = .ok i := by
  unfold codeOf at h
  split at h <;> cases h
  · exact decodeCommand_commandWord hwf ‹_›
  · rw [decode, decodeControl_code hc]
    exact congrArg Except.ok (instr_of_controlWord ‹_›)

/-- What an instruction expands to is well formed and has a word of its own (R79). -/
theorem mem_expand (c : CwCodes) (hwf : i.wf = true) (hj : j ∈ expand i) : j.wf = true ∧ ∃ k, codeOf c j = some k := by
  have hwrite : ∀ b, (Instr.writechar b).wf = true ∧ ∃ k, codeOf c (.writechar b) = some k := fun b => ⟨rfl, _, rfl⟩
  cases i with
  | writestring text =>
    obtain ⟨b, -, rfl⟩ := List.mem_map.mp hj
    exact hwrite b
  | writeline text =>
    obtain hj | hj := List.mem_append.mp hj
    · obtain ⟨b, -, rfl⟩ := List.mem_map.mp hj
      exact hwrite b
    · obtain rfl | rfl : j = .writechar 0x0D ∨ j = .writechar 0x0A := by simpa using hj
      · exact hwrite _
      · exact hwrite _
  | _ => cases List.mem_singleton.mp hj; exact ⟨hwf, _, rfl⟩

/-- Settles O2: each instruction of the expansion has a word, which is read back. -/
theorem encodeThenDecodeGivesInstruction : Obligations.EncodeThenDecodeGivesInstruction := by
  intro c i hc hwf
  have hback : ∀ j ∈ expand i, (codeOf c j).map (decode c) = some (.ok j) := fun j hj => by
    obtain ⟨hjwf, k, hk⟩ := mem_expand c hwf hj
    rw [hk, Option.map_some, decode_codeOf hc hjwf hk]
  calc (encode c i).map (decode c)
      = (expand i).filterMap fun j => (codeOf c j).map (decode c) := List.map_filterMap
    _ = (expand i).filterMap fun j => some (.ok j) := List.filterMap_congr hback
    _ = (expand i).map Except.ok := congrFun List.filterMap_eq_map' _

end Sys2Proof.Proofs
end

section
/-! PROOFS. The address byte (O6), the result word and the read port of RBUF (O14). -/

namespace Sys2Proof.Proofs

open Sys2Proof.Machine Sys2Proof.Laws

/-- The address byte is the shifted address plus the direction bit, which the shift has left free (R66). -/
theorem addressByte_eq_add (sa : Byte) (d : Direction) : addressByte sa d = sa <<< 1 + d.bit := by
  refine (BitVec.add_eq_or_of_and_eq_zero _ _ ?_).symm
  cases d
  · simp [Direction.bit]
  · simp [Direction.bit, BitVec.and_one_eq_setWidth_ofBool_getLsbD]

theorem addressByte_toNat (sa : Byte) (d : Direction) :
    (addressByte sa d).toNat = (2 * sa.toNat + d.bit.toNat) % 256 := by
  rw [addressByte_eq_add, BitVec.toNat_add, BitVec.toNat_shiftLeft, Nat.shiftLeft_eq]
  omega

/-- Settles O6: the three clauses are arithmetic of `2 * SA` plus a bit. -/
theorem addressByteDropsTopBit : Obligations.AddressByteDropsTopBit := by
  intro sa d
  refine ⟨addressByte_toNat sa .write, addressByte_toNat sa .read, BitVec.eq_of_toNat_eq ?_⟩
  have hbit : d.bit.toNat < 2 := by cases d <;> decide
  rw [toNat_field, toNat_field, addressByte_toNat]
  omega

/-! ## Results -/

variable {s : State}

theorem resWord_readreg (hv : s.port.resValid = true) (hk : s.port.rop = some .readreg) : resWord s = resReadreg s.seq := by
  simp [resWord, hv, hk]

theorem resWord_pollchar (hv : s.port.resValid = true) (hk : s.port.rop = some .pollchar) : resWord s = resPollchar s.cch := by
  simp [resWord, hv, hk]

theorem resWord_writechar (hv : s.port.resValid = true) (hk : s.port.rop = some .writechar) :
    resWord s = some (resFormat .writechar 0b00 0) := by
  simp [resWord, hv, hk]

theorem rbufData_of_ok (hr : s.seq.res = .ok) (hi : s.port.rbufIdx.toNat < s.seq.cnt.toNat) :
    rbufData s = Memory.read s.seq.rbuf s.port.rbufIdx.toNat := if_pos ⟨hr, hi⟩

theorem rbufData_of_not (h : ¬(s.seq.res = .ok ∧ s.port.rbufIdx.toNat < s.seq.cnt.toNat)) : rbufData s = none := if_neg h

/-- Settles O14: the result word by the command it belongs to, the read port by its guard. -/
theorem resultWordFormat : Obligations.ResultWordFormat := by
  intro s
  refine ⟨fun hv => ?_, fun hv hk hr => ?_, fun r hv hk hr => ?_, fun hv hk r hr => ?_, resWord_writechar, rbufData_of_ok,
    fun hle => rbufData_of_not fun ⟨_, hlt⟩ => hle.not_gt hlt, fun hr => rbufData_of_not fun ⟨hok, _⟩ => hr hok, rfl⟩
  · simp [resWord, hv]
  · rw [resWord_readreg hv hk, resReadreg, hr]
    rfl
  · rw [resWord_readreg hv hk, resReadreg, hr]
    cases r <;> rfl
  · rw [resWord_pollchar hv hk, resPollchar, hr]
    rfl

end Sys2Proof.Proofs
end

section
/-! PROOFS. The pseudo-operations (O33), and a WRITESTRING of the host with room on the output side (O51): the three moves of one
WRITECHAR, then the text. -/

namespace Sys2Proof.Proofs

open Sys2Proof.Machine Sys2Proof.Laws

variable {s t u : State} {b : Byte} {text : List Byte} {prog : List HostOp} {rest : List Move}

/-! ## The pseudo-operations -/

theorem expansion_writestring (text : List Byte) :
    expansion (.writestring text) = text.map fun b => .issue (.writechar b) := List.map_map ..

theorem expansion_writeline (text : List Byte) :
    expansion (.writeline text) =
      (text.map fun b => .issue (.writechar b)) ++ [.issue (.writechar 0x0D), .issue (.writechar 0x0A)] := by
  rw [← expansion_writestring]
  exact List.map_append

/-- Settles O33: the expansion of each is put before the host's program. -/
theorem pseudoOperationsExpand : Obligations.PseudoOperationsExpand := by
  intro s text
  refine ⟨?_, ?_, rfl, rfl⟩
  · rw [← expansion_writestring]
    rfl
  · rw [← expansion_writeline]
    rfl

/-! ## What a text's WRITECHARs leave behind -/

/-- From `s` to `t` the text has been pushed, the host does not wait, and SEQ, BUSIF and SERIAL are as before. -/
structure Pushes (text : List Byte) (s t : State) : Prop where
  evlog : t.evlog = s.evlog ++ text.map .push
  ready : hostWaits t = false
  seq : t.seq = s.seq
  bus : t.bus = s.bus
  serial : t.serial = s.serial

theorem Pushes.trans {text' : List Byte} (h : Pushes text s t) (h' : Pushes text' t u) : Pushes (text ++ text') s u where
  evlog := by rw [h'.evlog, h.evlog, List.map_append, List.append_assoc]
  ready := h'.ready
  seq := h'.seq.trans h.seq
  bus := h'.bus.trans h.bus
  serial := h'.serial.trans h.serial

theorem Pushes.txlog (h : Pushes text s t) : txlog t = txlog s ++ text := by
  have hpushed : (text.map .push).filterMap Event.pushed? = text := by
    rw [List.filterMap_map]
    exact List.filterMap_some
  rw [Machine.txlog, h.evlog, List.filterMap_append, hpushed, ← Machine.txlog]

theorem busy_of_hostWaits (h : hostWaits s = false) : busy s = false := by
  simp only [hostWaits, Bool.or_eq_false_iff] at h
  obtain ⟨⟨-, hbusy⟩, -⟩ := h
  exact hbusy

/-! ## One WRITECHAR -/

/-- The host's WRITECHAR on the command port (R34). -/
def writecharIssued (b : Byte) (prog : List HostOp) (s : State) : State :=
  presentCommand (encodeWritechar b) { s with host := { s.host with prog := prog, awaiting := true } }

/-- The WRITECHAR taken from the port (R134). -/
def writecharTaken (b : Byte) (s : State) : State := beginSend .write b [b] (beginCommand .writechar (withdrawCommand s))

/-- The byte of the WRITECHAR pushed, which ends the command (R131, R134). -/
def writecharDone (b : Byte) (s : State) : State := endSend (pushByte b (writecharTaken b s))

theorem hostMove_writechar (hw : hostWaits s = false) (hprog : s.host.prog = .issue (.writechar b) :: prog) :
    hostMove s = .next (writecharIssued b prog s) := by
  simp [hostMove, hw, hprog, hostIssue, commandWord, hostGoesOn, writecharIssued]

theorem acceptMove_writecharIssued (hb : busy s = false) (b : Byte) (prog : List HostOp) :
    acceptMove (writecharIssued b prog s) = .next (writecharTaken b (writecharIssued b prog s)) := by
  have hidle : busy (withdrawCommand (writecharIssued b prog s)) = false := hb
  rw [acceptMove_ok (s := writecharIssued b prog s) rfl hb (decodeCommand_encodeWritechar b)]
  simp [exec, execWritechar, hidle, writecharTaken]

theorem sendStep_writecharTaken (hroom : s.serial.txRoom = true) (b : Byte) :
    sendStep (writecharTaken b s) = writecharDone b s := by
  simp [sendStep, writecharTaken, writecharDone, hroom]

/-- The three moves of one WRITECHAR. -/
theorem core_run_writechar (hw : hostWaits s = false) (hroom : s.serial.txRoom = true)
    (hprog : s.host.prog = .issue (.writechar b) :: prog) (hs : s.script = writeMoves ++ rest) (k : Nat) :
    core.run (k + 3) s = core.run k (writecharDone b (writecharIssued b prog { s with script := rest })) := by
  have hhost (ms : List Move) : runMove .host { s with script := ms } = .next (writecharIssued b prog { s with script := ms }) :=
    hostMove_writechar hw hprog
  have haccept (ms : List Move) := acceptMove_writecharIssued (s := { s with script := ms }) (busy_of_hostWaits hw) b prog
  have hcch (ms : List Move) := sendStep_writecharTaken (s := writecharIssued b prog { s with script := ms }) hroom b
  calc core.run (k + 3) s
      = core.run (k + 2) (writecharIssued b prog { s with script := .accept :: .cch :: rest }) := core_run_succ _ hs (hhost _)
    _ = core.run (k + 1) (writecharTaken b (writecharIssued b prog { s with script := .cch :: rest })) :=
      core_run_succ _ rfl (haccept (.cch :: rest))
    _ = core.run k (writecharDone b (writecharIssued b prog { s with script := rest })) :=
      core_run_succ _ rfl (congrArg Host.Outcome.next (hcch rest))

theorem pushes_writecharDone (hw : hostWaits s = false) (b : Byte) (prog : List HostOp) (ms : List Move) :
    Pushes [b] s (writecharDone b (writecharIssued b prog { s with script := ms })) where
  evlog := rfl
  ready := by
    obtain ⟨hseq, -⟩ := busy_eq_false (busy_of_hostWaits hw)
    simp [hostWaits, busy, writecharDone, writecharTaken, writecharIssued, hseq, endSend]
  seq := rfl
  bus := rfl
  serial := rfl

/-! ## The text -/

/-- The WRITECHARs of a text push it, one after the other. -/
theorem core_run_writechars (hw : hostWaits s = false) (hroom : s.serial.txRoom = true)
    (hprog : s.host.prog = text.map (fun b => .issue (.writechar b)) ++ prog)
    (hs : s.script = (List.replicate text.length writeMoves).flatten ++ rest) :
    ∃ t, core.run (3 * text.length) s = .next t ∧ Pushes text s t ∧ t.host.prog = prog ∧ t.script = rest := by
  induction text generalizing s with
  | nil => exact ⟨s, rfl, ⟨(List.append_nil _).symm, hw, rfl, rfl, rfl⟩, hprog, hs⟩
  | cons b text ih =>
    have hs' : s.script = writeMoves ++ ((List.replicate text.length writeMoves).flatten ++ rest) := by
      rw [hs, List.length_cons, List.replicate_succ, List.flatten_cons, List.append_assoc]
    have hfirst := pushes_writecharDone hw b (text.map (fun b => .issue (.writechar b)) ++ prog)
      ((List.replicate text.length writeMoves).flatten ++ rest)
    obtain ⟨t, hrun, hrest, hend⟩ := ih hfirst.ready hroom rfl rfl
    exact ⟨t, (core_run_writechar hw hroom hprog hs' _).trans hrun, hfirst.trans hrest, hend⟩

/-- The WRITESTRING expanded (R79). -/
def writestringExpanded (text : List Byte) (prog : List HostOp) (s : State) : State :=
  expandInto (.writestring text) (hostGoesOn prog s)

theorem writestringExpanded_prog (text : List Byte) (prog : List HostOp) (s : State) :
    (writestringExpanded text prog s).host.prog = text.map (fun b => .issue (.writechar b)) ++ prog := by
  rw [← expansion_writestring]
  rfl

theorem hostWaits_writestringExpanded (hw : hostWaits s = false) : hostWaits (writestringExpanded text prog s) = false := by
  simp_all [hostWaits, busy, writestringExpanded, expandInto]

/-- Settles O51: the first move puts the WRITECHARs in the place of the WRITESTRING. -/
theorem writestringPushesText : Obligations.WritestringPushesText := by
  intro s text prog rest hw hroom hprog hs
  have hexpand (ms : List Move) : runMove .host { s with script := ms } =
      .next (writestringExpanded text prog { s with script := ms }) :=
    hostMove_exec (s := { s with script := ms }) (i := .writestring text) hw hprog rfl
  obtain ⟨t, hrun, hpush, hend, hscript⟩ := core_run_writechars
    (s := writestringExpanded text prog { s with script := (List.replicate text.length writeMoves).flatten ++ rest })
    (hostWaits_writestringExpanded hw) hroom (writestringExpanded_prog ..) rfl
  exact ⟨t, by rw [Nat.add_comm, core_run_succ _ hs (hexpand _), hrun], hpush.evlog, hpush.txlog, hend,
    busy_of_hostWaits hpush.ready, hscript, hpush.seq, hpush.bus, hpush.serial⟩

end Sys2Proof.Proofs
end

section
/-! PROOFS. The submit and the abort (O9, O12), the receive word (O7), and SEQ's wait while `DONE = 0` (O10, O11, O47). -/

namespace Sys2Proof.Proofs

open Sys2Proof.Machine Sys2Proof.Laws

variable {s : State}

/-! ## Submit, abort and the receive word -/

/-- Settles O9: `submit` is the writes of R92 as they stand, with the mark cleared; `submitTx` pokes `DATA` before it. -/
theorem submitEffects : Obligations.SubmitEffects :=
  ⟨fun _ _ => ⟨false, rfl⟩, fun _ _ => ⟨false, rfl⟩⟩

/-- Settles O12: `abort` is the writes of R104 as they stand, and the log is none of them. -/
theorem abortWritesResultAndPhaseOnly : Obligations.AbortWritesResultAndPhaseOnly :=
  fun _ _ => ⟨rfl, rfl⟩

/-- Settles O7: below a count, which is then not 0, `CNT - 1` does not wrap (R107(c)). -/
theorem receiveWordNacksOnlyLastByte : Obligations.ReceiveWordNacksOnlyLastByte := by
  intro i cnt hi
  have hc : cnt ≠ 0 := fun h => absurd (h ▸ hi) BitVec.not_lt_zero
  simp only [rxword, isLast_iff hc]

/-! ## The wait -/

/-- In every waiting phase SEQ's step with `DONE = 0` is a poll (R93). -/
theorem seqMove_undone (hp : s.seq.ph ≠ .idle) (hd : s.bus.done = false) : seqMove s = .next (pollAgain s) := by
  have hwait (k : State → Host.Outcome State Fault Refusal) : awaitDone k s = .next (pollAgain s) := by
    simp [awaitDone, hd]
  cases h : s.seq.ph with
  | idle => exact absurd h hp
  | wStart => simp [seqMove, awaited, h, ControlWord.instr, exec, execCwStart, hwait]
  | wSlaw | wReg | wSlar => simp [seqMove, awaited, h, ControlWord.instr, exec, execCwTx, hwait]
  | wRstart => simp [seqMove, awaited, h, ControlWord.instr, exec, execCwRstart, hwait]
  | wData =>
    cases hl : isLast s.seq.idx s.seq.cnt
    · simp [seqMove, awaited, rxword, h, hl, ControlWord.instr, exec, execCwRxAck, hwait]
    · simp [seqMove, awaited, rxword, h, hl, ControlWord.instr, exec, execCwRxNack, hwait]

/-- Settles O10: without a bound a poll is no change. -/
theorem unboundedWaitChangesNothing : Obligations.UnboundedWaitChangesNothing := by
  intro s hp hd hnone
  rw [seqMove_undone hp hd, pollAgain, hnone]

/-- Settles O11: with a bound a poll is counted, and below the bound that is all. -/
theorem boundedWaitCountsThenTimesOut : Obligations.BoundedWaitCountsThenTimesOut := by
  intro s l hp hd hl
  rw [seqMove_undone hp hd, pollAgain, hl]
  by_cases hlt : s.seq.polls + 1 < l
  · simp [hlt]
  · simp [hlt, Nat.le_of_not_lt hlt]
    rfl

/-- Other contents of `STATUS` and `DATA`. -/
def withStatusData (status data : Byte) (s : State) : State :=
  { s with bus := { s.bus with status := status, data := data } }

theorem withStatusData_cfg (status data : Byte) (s : State) : (withStatusData status data s).cfg = s.cfg := rfl

theorem withStatusData_seq (status data : Byte) (s : State) : (withStatusData status data s).seq = s.seq := rfl

/-- A poll does not look at `STATUS` or `DATA`, and leaves both. -/
theorem pollAgain_withStatusData (status data : Byte) (s : State) :
    pollAgain (withStatusData status data s) = withStatusData status data (pollAgain s) := by
  unfold pollAgain
  rw [withStatusData_cfg, withStatusData_seq]
  split
  · rfl
  · split <;> rfl

/-- Settles O47: with `DONE = 0` the step is a poll. -/
theorem statusAndDataUnreadBeforeDone : Obligations.StatusAndDataUnreadBeforeDone := by
  intro s t hp hd h status data
  obtain rfl : pollAgain s = t := by simpa [seqMove_undone hp hd] using h
  calc seqMove (withStatusData status data s) = .next (pollAgain (withStatusData status data s)) := seqMove_undone hp hd
    _ = .next (withStatusData status data (pollAgain s)) := by rw [pollAgain_withStatusData]

end Sys2Proof.Proofs
end

section
/-! PROOFS. The acceptance of a READREG (O15), and what each awaited control word does with `DONE = 1` (O17 to O23): SEQ's
verdict is the phase's success action or the abort. -/

namespace Sys2Proof.Proofs

open Sys2Proof.Machine Sys2Proof.Laws

variable {s t : State} {cw : ControlWord} {st : StatusName}

/-- Settles O15: an idle block accepts a count that is not 0. -/
theorem readregAcceptance : Obligations.ReadregAcceptance := by
  intro s sa ra count hb hc
  have haccept : (busy s || !countOk count) = false := by simpa [hb, countOk] using hc
  simp only [exec, execReadreg, haccept]
  rfl

/-! ## The verdict -/

/-- With `DONE = 1` the awaited control word is SEQ's verdict (R95). -/
theorem exec_awaited_done (ha : awaited s.seq = some cw) (hd : s.bus.done = true)
    (hi : s.seq.ph = .wData → s.seq.idx.toNat < s.cfg.countMax) : exec cw.instr s = .next (verdict s) := by
  have hp : s.seq.ph ≠ .idle := fun hp => by simp [awaited_eq_none.mpr hp] at ha
  rw [exec_of_awaited ha, seqMove_waiting hp hi, if_pos hd]

/-- With `DONE = 1` and a status expected: a match takes the success action, a mismatch aborts (R95). -/
theorem exec_checked (ha : awaited s.seq = some cw) (he : expectedStatus s.cfg s.seq = some st) (hd : s.bus.done = true)
    (hi : s.seq.ph = .wData → s.seq.idx.toNat < s.cfg.countMax) (hadv : advance s = t) :
    (s.bus.status = s.cfg.statusCode.code st → exec cw.instr s = .next t) ∧
    (s.bus.status ≠ s.cfg.statusCode.code st → exec cw.instr s = .next (abort .protocolError s)) := by
  rw [exec_awaited_done ha hd hi]
  exact ⟨fun h => by simp [verdict, passes, he, h, hadv], fun h => by simp [verdict, passes, he, h]⟩

/-! ## The phases -/

/-- Settles O17: W_START awaits CW_START and expects the start status. -/
theorem startCompletes : Obligations.StartCompletes := fun s hp hd =>
  exec_checked (cw := .start) (st := .start) (by simp [awaited, hp]) (by simp [expectedStatus, hp]) hd (by simp [hp])
    (by simp only [advance, hp]; rfl)

/-- Settles O18: W_SLAW awaits CW_TX and expects the acknowledge of the write address. -/
theorem writeAddressCompletes : Obligations.WriteAddressCompletes := fun s hp hd =>
  exec_checked (cw := .tx) (st := .slawAck) (by simp [awaited, hp]) (by simp [expectedStatus, hp]) hd (by simp [hp])
    (by simp only [advance, hp]; rfl)

/-- Settles O19: W_REG awaits CW_TX and expects the acknowledge of the register address. -/
theorem registerAddressCompletes : Obligations.RegisterAddressCompletes := fun s hp hd =>
  exec_checked (cw := .tx) (st := .dataTxAck) (by simp [awaited, hp]) (by simp [expectedStatus, hp]) hd (by simp [hp])
    (by simp only [advance, hp]; rfl)

/-- Settles O20: W_RSTART awaits CW_RSTART and expects a status only with `VALIDATE_RSTART`. -/
theorem repeatedStartCompletes : Obligations.RepeatedStartCompletes := by
  intro s hp hd
  have hverdict : exec .cwRstart s = .next (verdict s) :=
    exec_awaited_done (cw := .rstart) (by simp [awaited, hp]) hd (by simp [hp])
  refine ⟨fun h => ?_, fun hv hs => ?_⟩ <;> rw [hverdict]
  · have hpass : passes s.cfg (expectedStatus s.cfg s.seq) s.bus.status = true := by
      obtain hv | hs := h
      · simp [expectedStatus, hp, hv, passes]
      · exact (completesWell_rstart hp hd fun _ => hs).2
    simp only [verdict, hpass, if_true, advance, hp]
    rfl
  · simpa [verdict, expectedStatus, hp, hv, passes, StatusCodes.code] using fun h => absurd h hs

/-- Only a single byte's first index is the last (R101). -/
theorem rxword_zero (cnt : Byte) : rxword 0 cnt = if cnt = 1 then .rxNack else .rxAck := by
  have hlast : isLast 0 cnt = true ↔ cnt = 1 := by
    simp only [isLast, beq_iff_eq]
    bv_omega
  simp only [rxword, hlast]

/-- Settles O21: W_SLAR awaits CW_TX and expects the acknowledge of the read address; `rxword_zero` gives the receive. -/
theorem readAddressCompletes : Obligations.ReadAddressCompletes := by
  intro s hp hd
  obtain ⟨hmatch, hother⟩ := exec_checked (cw := .tx) (st := .slarAck) (t := afterSlar s) (by simp [awaited, hp])
    (by simp [expectedStatus, hp]) hd (by simp [hp]) (by simp [advance, hp])
  refine ⟨fun h h1 => (hmatch h).trans ?_, fun h h1 => (hmatch h).trans ?_, hother⟩ <;>
    simp only [afterSlar, rxword_zero, h1] <;> rfl

/-- Settles O22: before the last byte W_DATA awaits CW_RX_ACK. -/
theorem dataByteCompletes : Obligations.DataByteCompletes := by
  intro s hp hd hlt hi
  have hc : s.seq.cnt ≠ 0 := fun h => by simp [h] at hlt
  have hl : isLast s.seq.idx s.seq.cnt = false := eq_false_of_ne_true fun h => hlt.ne ((isLast_iff hc).mp h)
  exact exec_checked (cw := .rxAck) (st := .dataRxAck) (t := nextByte (storeByte s)) (awaited_eq_rxAck.mpr ⟨hp, hl⟩)
    (by simp [expectedStatus, hp, hl, rxExpected]) hd (fun _ => hi) (by simp [advance, hp, hl])

/-- Settles O23: at the last byte W_DATA awaits CW_RX_NACK, and its success action ends with `finish()` (R103). -/
theorem lastDataByteFinishes : Obligations.LastDataByteFinishes := by
  intro s hp hd hlast hi
  have hc : s.seq.cnt ≠ 0 := fun h => by simp [h] at hlast
  have hl : isLast s.seq.idx s.seq.cnt = true := (isLast_iff hc).mpr hlast
  obtain ⟨hmatch, hother⟩ := exec_checked (cw := .rxNack) (st := .dataRxNack) (t := finish (storeByte s))
    (awaited_eq_rxNack.mpr ⟨hp, hl⟩) (by simp [expectedStatus, hp, hl, rxExpected]) hd (fun _ => hi)
    (by simp [advance, hp, hl])
  refine ⟨fun h hstop => (hmatch h).trans ?_, fun h hstop => (hmatch h).trans ?_, hother⟩ <;>
    simp only [finish, storeByte_cfg, hstop] <;> rfl

end Sys2Proof.Proofs
end

section
/-! PROOFS. What the control words (O26) and the host commands (O27) leave unchanged, and BUSIF's completion step (O36). -/

namespace Sys2Proof.Proofs

open Sys2Proof.Machine Sys2Proof.Laws

variable {s t : State} {cw : ControlWord}

/-! ## Control words -/

/-- What no step of SEQ changes. -/
structure SeqFrame (s t : State) : Prop where
  cfg : t.cfg = s.cfg := by rfl
  cch : t.cch = s.cch := by rfl
  serial : t.serial = s.serial := by rfl
  latch : t.latch = s.latch := by rfl
  host : t.host = s.host := by rfl
  script : t.script = s.script := by rfl
  sa : t.seq.sa = s.seq.sa := by rfl
  ra : t.seq.ra = s.seq.ra := by rfl
  cnt : t.seq.cnt = s.seq.cnt := by rfl
  port : t.port = { s.port with resValid := t.port.resValid } := by rfl
  status : t.bus.status = s.bus.status := by rfl

theorem seqFrame_pollAgain (s : State) : SeqFrame s (pollAgain s) := by
  obtain ⟨-, h⟩ | ⟨l, -, -, h⟩ | ⟨l, -, -, h⟩ := pollAgain_cases s <;> rw [h] <;> exact {}

theorem seqFrame_poke (cw : ControlWord) (s : State) : SeqFrame s (submit cw (readyData cw s)) := by
  obtain ⟨data, poked, idx, h⟩ := readyData_frame cw s
  rw [h]
  exact {}

theorem seqFrame_finish_storeByte (s : State) : SeqFrame s (finish (storeByte s)) := by
  obtain ⟨-, h⟩ | ⟨-, h⟩ := finish_cases (storeByte s) <;> rw [h] <;> exact {}

theorem seqFrame_controlStep (h : ControlStep cw s t) : SeqFrame s t := by
  cases h with
  | poll => exact seqFrame_pollAgain s
  | poke => exact seqFrame_poke cw s
  | done => exact seqFrame_finish_storeByte s
  | _ => exact {}

theorem pollAgain_rbuf (s : State) : (pollAgain s).seq.rbuf = s.seq.rbuf := by
  obtain ⟨-, h⟩ | ⟨l, -, -, h⟩ | ⟨l, -, -, h⟩ := pollAgain_cases s <;> simp [h]

theorem pollAgain_freeIdx (s : State) : (pollAgain s).freeIdx = s.freeIdx := by
  obtain ⟨-, h⟩ | ⟨l, -, -, h⟩ | ⟨l, -, -, h⟩ := pollAgain_cases s <;> simp [h]

theorem finish_rbuf (s : State) : (finish s).seq.rbuf = s.seq.rbuf := by
  obtain ⟨-, h⟩ | ⟨-, h⟩ := finish_cases s <;> rw [h] <;> rfl

theorem finish_freeIdx (s : State) : (finish s).freeIdx = s.freeIdx := by
  obtain ⟨-, h⟩ | ⟨-, h⟩ := finish_cases s <;> rw [h] <;> rfl

theorem readyData_seq (cw : ControlWord) (s : State) : (readyData cw s).seq = s.seq := by
  obtain ⟨data, poked, idx, h⟩ := readyData_frame cw s
  rw [h]

/-- Only a CW_TX poked while SEQ is idle draws a free value (log 39). -/
theorem freeIdx_controlStep (h : ControlStep cw s t) (hn : cw ≠ .tx ∨ s.seq.ph ≠ .idle) : t.freeIdx = s.freeIdx := by
  cases h with
  | poll => exact pollAgain_freeIdx s
  | poke hp =>
    have hready : readyData cw s = s := if_neg fun ⟨htx, _⟩ => hn.elim (absurd htx) (absurd hp)
    rw [hready, submit_freeIdx]
  | done => exact finish_freeIdx (storeByte s)
  | _ => rfl

/-- `RBUF` is as before, or the byte in `DATA` has been stored at `IDX` in W_DATA (R102). -/
theorem rbuf_controlStep (h : ControlStep cw s t) :
    t.seq.rbuf = s.seq.rbuf ∨ s.seq.ph = .wData ∧ t.seq.rbuf = Memory.write s.seq.rbuf s.seq.idx.toNat s.bus.data := by
  cases h with
  | poll => exact .inl (pollAgain_rbuf s)
  | poke => exact .inl (by rw [submit_seq, readyData_seq])
  | byte hp => exact .inr ⟨hp, rfl⟩
  | done hp => exact .inr ⟨hp, finish_rbuf (storeByte s)⟩
  | _ => exact .inl rfl

/-- W_DATA gives a meaning to a receive word only (R25, R101). -/
theorem receive_of_wData (hp : s.seq.ph = .wData) (h : exec cw.instr s = .next t) : cw = .rxAck ∨ cw = .rxNack := by
  have ha : awaited s.seq = some cw := by
    by_contra hn
    rw [exec_of_not_awaited hn] at h
    exact absurd ((pokeWord_next h).1.symm.trans hp) nofun
  simp only [awaited, hp, rxword, Option.some.injEq] at ha
  subst ha
  split
  · exact .inr rfl
  · exact .inl rfl

/-- Settles O26: `SeqFrame` of every control word's step, and the one store into `RBUF`. -/
theorem controlWordFrame : Obligations.ControlWordFrame := by
  intro s t cw h
  have hstep := controlWord_next h
  have hf := seqFrame_controlStep hstep
  refine ⟨hf.cfg, hf.cch, hf.serial, hf.latch, hf.host, hf.script, freeIdx_controlStep hstep, hf.sa, hf.ra, hf.cnt, hf.port,
    hf.status, fun a ha => ?_, fun hack hnack => ?_⟩
  · obtain hr | ⟨-, hr⟩ := rbuf_controlStep hstep <;> rw [hr]
    exact memory_read_write_other _ _ ha
  · obtain hr | ⟨hp, -⟩ := rbuf_controlStep hstep
    · exact hr
    · exact absurd (receive_of_wData hp h) (not_or.mpr ⟨hack, hnack⟩)

/-! ## Host commands -/

/-- What an accepted or held POLLCHAR or WRITECHAR does not change. -/
structure CharFrame (s t : State) : Prop where
  cfg : t.cfg = s.cfg := by rfl
  seq : t.seq = s.seq := by rfl
  bus : t.bus = s.bus := by rfl
  latch : t.latch = s.latch := by rfl
  host : t.host = s.host := by rfl
  script : t.script = s.script := by rfl
  txRoom : t.serial.txRoom = s.serial.txRoom := by rfl
  txlog : txlog t = txlog s := by rfl
  cmdValid : t.port.cmdValid = s.port.cmdValid := by rfl
  cmd : t.port.cmd = s.port.cmd := by rfl
  rbufIdx : t.port.rbufIdx = s.port.rbufIdx := by rfl

/-- The event of a byte taken is no byte pushed. -/
theorem charFrame_pollByte (echo : Bool) (b : Byte) (rest : List Byte) (s : State) :
    CharFrame s (pollByte echo b rest (beginCommand .pollchar s)) := by
  have hlog : (s.evlog ++ [Event.pop b]).filterMap Event.pushed? = s.evlog.filterMap Event.pushed? := by
    simp [Event.pushed?]
  cases echo <;> exact { txlog := hlog }

/-- The step of an instruction that is no control word. -/
theorem commandStep_of_exec {i : Instr} (hi : controlWord i = none) (h : exec i s = .next t) : CommandStep s i t := by
  obtain h | ⟨cw, hcw, -⟩ := exec_next h
  · exact h
  · exact absurd (hi.symm.trans hcw) nofun

theorem charFrame_pollchar {echo : Bool} (h : exec (.pollchar echo) s = .next t) : CharFrame s t := by
  cases commandStep_of_exec rfl h with
  | held => exact {}
  | pollNothing => exact {}
  | pollByte => exact charFrame_pollByte echo _ _ s
  | expand hi => cases hi

/-- Settles O27: by the cases of each command's step. -/
theorem hostCommandFrame : Obligations.HostCommandFrame := by
  intro s t
  have hwrite {b : Byte} (h : exec (.writechar b) s = .next t) :
      CharFrame s t ∧ t.serial = s.serial ∧ t.evlog = s.evlog ∧ t.freeIdx = s.freeIdx := by
    cases commandStep_of_exec rfl h with
    | held => exact ⟨{}, rfl, rfl, rfl⟩
    | writechar => exact ⟨{}, rfl, rfl, rfl⟩
    | expand hi => cases hi
  refine ⟨fun sa ra count h => ?_, fun i hi h => ?_, fun b h => (hwrite h).2⟩
  · cases commandStep_of_exec rfl h with
    | held => exact ⟨rfl, rfl, rfl, rfl, rfl, rfl, rfl, rfl, rfl, rfl, rfl, rfl, rfl⟩
    | readreg => exact ⟨rfl, rfl, rfl, rfl, rfl, rfl, rfl, rfl, rfl, rfl, rfl, rfl, rfl⟩
    | expand hi => cases hi
  · have hf : CharFrame s t := by
      obtain ⟨echo, rfl⟩ | ⟨b, rfl⟩ := hi
      · exact charFrame_pollchar h
      · exact (hwrite h).1
    exact ⟨hf.cfg, hf.seq, hf.bus, hf.latch, hf.host, hf.script, hf.txRoom, hf.txlog, hf.cmdValid, hf.cmd, hf.rbufIdx⟩

/-! ## BUSIF -/

/-- Only the two receive words' actions receive (R27). -/
theorem receives_iff {a : Machine.Action} : a.receives = true ↔ a = .rxAck ∨ a = .rxNack := by
  cases a <;> simp [Action.receives]

/-- Settles O36: with an action pending it is answered, and the event is a receive's exactly where the action receives. -/
theorem busifCompletion : Obligations.BusifCompletion := by
  intro s status data
  have hcomplete {a} (ha : s.bus.pending = some a) : runMove (.complete status data) s = .next (answered a status data s) :=
    congrArg Host.Outcome.next (completeAction_pending status data ha)
  refine ⟨fun hnone => ?_, fun a ha hrx => ?_, fun a ha hack hnack => ?_, fun hstop => ?_, fun hstop => ?_⟩
  · simp [runMove, completeAction, hnone]
  · rw [hcomplete ha, answered, completionEvent, if_pos (receives_iff.mpr hrx)]
  · rw [hcomplete ha, answered, completionEvent, if_neg (receives_iff.not.mpr (not_or.mpr ⟨hack, hnack⟩))]
  · simp [runMove, dropStop, hstop]
  · simp [runMove, dropStop, hstop]

end Sys2Proof.Proofs
end

section
/-! PROOFS. The phase table (O42): what each operation of the block does to `PH`, and that an idle SEQ starts only on the
READREG on the port. -/

namespace Sys2Proof.Proofs

open Sys2Proof.Machine Sys2Proof.Laws

variable {s t u : State}

/-! ## Out of a phase -/

/-- A READREG ends with `Ok` after the last byte, with ProtocolError on a failed check, with Timeout under a bound, or by reset
(R103, R104, R108). -/
inductive PhaseEnds (s t : State) : Prop
  | ok (hp : s.seq.ph = .wData) (hl : isLast s.seq.idx s.seq.cnt = true) (hw : completesWell s) (hr : t.seq.res = .ok)
  | protocolError (hw : completesBadly s) (hr : t.seq.res = .err .protocolError)
  | timeout (hd : s.bus.done = false) (hb : s.cfg.timeoutPolls.isSome = true) (hr : t.seq.res = .err .timeout)
  | reset (hr : t.seq = .reset)

/-- The row of R108's table for one step, from any phase. -/
structure PhaseMove (s t : State) : Prop where
  table : phaseMayFollow s.seq.ph t.seq.ph = true
  advances : s.seq.ph ≠ .idle → t.seq.ph ≠ .idle → t.seq.ph ≠ s.seq.ph ∨ t.seq.idx ≠ s.seq.idx → completesWell s
  ends : s.seq.ph ≠ .idle → t.seq.ph = .idle → PhaseEnds s t

theorem phaseMayFollow_self (p : Phase) : phaseMayFollow p p = true := by
  cases p <;> rfl

theorem phaseMayFollow_idle (p : Phase) : phaseMayFollow p .idle = true := by
  cases p <;> rfl

/-- SEQ stays where it is. -/
theorem PhaseMove.stays (hph : t.seq.ph = s.seq.ph) (hidx : t.seq.idx = s.seq.idx) : PhaseMove s t where
  table := hph ▸ phaseMayFollow_self _
  advances _ _ hne := absurd hne (not_or.mpr ⟨not_not.mpr hph, not_not.mpr hidx⟩)
  ends hs ht := absurd (hph.symm.trans ht) hs

/-- SEQ goes on, its check passed. -/
theorem PhaseMove.goesOn (hph : phaseMayFollow s.seq.ph t.seq.ph = true) (ht : t.seq.ph ≠ .idle) (hw : completesWell s) :
    PhaseMove s t where
  table := hph
  advances _ _ _ := hw
  ends _ hidle := absurd hidle ht

/-- SEQ becomes idle. -/
theorem PhaseMove.becomesIdle (ht : t.seq.ph = .idle) (h : PhaseEnds s t) : PhaseMove s t where
  table := ht ▸ phaseMayFollow_idle _
  advances _ hne := absurd ht hne
  ends _ _ := h

/-- An idle SEQ stays idle or starts. -/
theorem PhaseMove.ofIdle (hp : s.seq.ph = .idle) (ht : t.seq.ph = .idle ∨ t.seq.ph = .wStart) : PhaseMove s t where
  table := by obtain ht | ht := ht <;> rw [hp, ht] <;> rfl
  advances hs := absurd hp hs
  ends hs := absurd hp hs

/-- The table speaks of SEQ, BUSIF and the configuration only, which a change around the block leaves. -/
theorem PhaseMove.of_around (h : Around s u) (hm : PhaseMove u t) : PhaseMove s t := by
  have hwell : completesWell u → completesWell s := fun hw => by
    rwa [completesWell, h.seq, h.bus, h.cfg] at hw
  have hbad : completesBadly u → completesBadly s := fun hw => by
    rwa [completesBadly, h.seq, h.bus, h.cfg] at hw
  refine ⟨h.seq ▸ hm.table, fun hs ht hne => hwell (hm.advances (h.seq ▸ hs) ht (h.seq ▸ hne)), fun hs ht => ?_⟩
  cases hm.ends (h.seq ▸ hs) ht with
  | ok hp hl hw hr => exact .ok (h.seq ▸ hp) (h.seq ▸ hl) (hwell hw) hr
  | protocolError hw hr => exact .protocolError (hbad hw) hr
  | timeout hd hb hr => exact .timeout (h.bus ▸ hd) (h.cfg ▸ hb) hr
  | reset hr => exact .reset hr

theorem phaseMove_pollAgain (hd : s.bus.done = false) : PhaseMove s (pollAgain s) := by
  obtain ⟨-, h⟩ | ⟨l, -, -, h⟩ | ⟨l, hl, -, h⟩ := pollAgain_cases s <;> rw [h]
  · exact .stays rfl rfl
  · exact .stays rfl rfl
  · exact .becomesIdle rfl (.timeout hd (by simp [hl]) rfl)

theorem phaseMove_finish (hp : s.seq.ph = .wData) (hl : isLast s.seq.idx s.seq.cnt = true) (hw : completesWell s) :
    PhaseMove s (finish (storeByte s)) := by
  obtain ⟨-, h⟩ | ⟨-, h⟩ := finish_cases (storeByte s) <;> rw [h] <;> exact .becomesIdle rfl (.ok hp hl hw rfl)

theorem phaseMove_controlStep {cw : ControlWord} (h : ControlStep cw s t) : PhaseMove s t := by
  cases h with
  | poll _ hd => exact phaseMove_pollAgain hd
  | fail _ hw => exact .becomesIdle rfl (.protocolError hw rfl)
  | poke hp => exact .ofIdle hp (.inl (by rw [submit_seq, readyData_seq]; exact hp))
  | byte hp hw => exact .goesOn (phaseMayFollow_self _) (by rw [nextByte, submit_seq]; simp [hp]) hw
  | done hp hw hl => exact phaseMove_finish hp hl hw
  | slaw hp hw | reg hp hw | rstart hp hw | slar hp hw | data hp hw => exact .goesOn (by rw [hp]; rfl) nofun hw

theorem phaseMove_commandStep {i : Instr} (h : CommandStep s i t) : PhaseMove s t := by
  cases h with
  | readreg hb => exact .ofIdle (busy_eq_false hb).1 (.inr rfl)
  | @pollByte echo => cases echo <;> exact .stays rfl rfl
  | _ => exact .stays rfl rfl

theorem phaseMove_blockStep (h : BlockStep s t) : PhaseMove s t := by
  cases h with
  | command h => exact phaseMove_commandStep h
  | control h => exact phaseMove_controlStep h
  | reset => exact .becomesIdle rfl (.reset rfl)
  | _ => exact .stays rfl rfl

theorem phaseMove_step (h : step s = .next t) : PhaseMove s t := by
  obtain ⟨u, haround, hblock⟩ := stepsTo_step h
  exact .of_around haround (phaseMove_blockStep hblock)

/-! ## Out of IDLE -/

/-- While SEQ is idle a control word leaves it so. -/
theorem idle_of_control {cw : ControlWord} (hp : s.seq.ph = .idle) (h : exec cw.instr s = .next t) : t.seq.ph = .idle := by
  rw [exec_control_idle hp] at h
  cases h
  rw [submit_seq, readyData_seq]
  exact hp

theorem seq_pollByte (echo : Bool) (b : Byte) (rest : List Byte) (s : State) : (pollByte echo b rest s).seq = s.seq := by
  cases echo <;> rfl

/-- An instruction that starts an idle SEQ is the READREG whose operands are then latched (R94). -/
theorem readreg_of_starts {i : Instr} (hp : s.seq.ph = .idle) (ht : t.seq.ph ≠ .idle) (h : exec i s = .next t) :
    i = .readreg t.seq.sa t.seq.ra t.seq.cnt := by
  obtain hstep | ⟨cw, hcw, -⟩ := exec_next h
  · cases hstep with
    | readreg => rfl
    | pollByte => exact absurd ((congrArg Seq.ph (seq_pollByte _ _ _ (beginCommand .pollchar s))).trans hp) ht
    | held | pollNothing | writechar | expand => exact absurd hp ht
  · obtain rfl := instr_of_controlWord hcw
    exact absurd (idle_of_control hp h) ht

theorem idle_of_hostMove (hp : s.seq.ph = .idle) (h : hostMove s = .next t) : t.seq.ph = .idle := by
  obtain ⟨-, rfl⟩ | ⟨-, -, rfl⟩ | ⟨i, rest, w, -, -, -, rfl⟩ | ⟨i, rest, -, -, hi, h⟩ | ⟨op, rest, -, -, -, h⟩ :=
    hostMove_next h
  · exact hp
  · exact hp
  · exact hp
  · by_contra ht
    rw [readreg_of_starts (s := hostGoesOn rest s) hp ht h] at hi
    cases hi
  · have hop : AroundMove (hostGoesOn rest s) (.next t) := h ▸ around_menuResume op _
    exact hop.of_next.seq ▸ hp

theorem idle_of_pokeTxnMove {w : Byte} (hp : s.seq.ph = .idle) (h : pokeTxnMove w s = .next t) : t.seq.ph = .idle := by
  rw [pokeTxnMove, if_pos hp] at h
  split at h
  · exact idle_of_control hp h
  · cases h

theorem seq_sendStep (s : State) : (sendStep s).seq = s.seq := by
  obtain h | ⟨b, rest, -, -, -, -, h⟩ | ⟨b, -, -, -, h⟩ := sendStep_cases s <;> simp [h, endSend]

theorem seq_completeAction (status data : Byte) (s : State) : (completeAction status data s).seq = s.seq := by
  obtain ⟨-, h⟩ | ⟨a, -, h⟩ := completeAction_cases status data s <;> rw [h]

theorem seq_dropStop (s : State) : (dropStop s).seq = s.seq := by
  unfold Machine.dropStop
  split <;> rfl

theorem seq_arrive (b : Byte) (s : State) : (arrive b s).seq = s.seq := by
  unfold Machine.arrive
  split <;> rfl

/-- Of all moves only the acceptance starts an idle SEQ. -/
theorem idle_of_runMove {m : Move} (hm : m ≠ .accept) (hp : s.seq.ph = .idle) (h : runMove m s = .next t) :
    t.seq.ph = .idle := by
  cases m <;> simp only [runMove, Host.Outcome.next.injEq] at h
  case accept => exact absurd rfl hm
  case seq =>
    rw [seqMove_idle hp] at h
    cases h
    exact hp
  case host => exact idle_of_hostMove hp h
  case pokeTxn w => exact idle_of_pokeTxnMove hp h
  case pokeData b =>
    obtain ⟨-, rfl⟩ := pokeDataMove_next h
    exact hp
  all_goals subst h
  case rst => rfl
  case cch => rwa [seq_sendStep]
  case present w => rwa [(around_presentMove w s).seq]
  case withdraw => rwa [(around_withdrawMove s).seq]
  case complete status data => rwa [seq_completeAction]
  case dropStop => rwa [seq_dropStop]
  case arrive b => rwa [seq_arrive]
  case tick => rwa [(around_tickCallback s).seq]
  case mainLoop => rwa [(around_mainLoopCall s).seq]
  case selectRbuf | room | full | latch => exact hp

/-- The acceptance starts an idle SEQ on the READREG on the port, with the block not busy (R23, R94). -/
theorem readreg_of_acceptMove (hp : s.seq.ph = .idle) (ht : t.seq.ph ≠ .idle) (h : acceptMove s = .next t) :
    s.port.cmdValid = true ∧ busy s = false ∧ decodeCommand s.port.cmd = .ok (.readreg t.seq.sa t.seq.ra t.seq.cnt) := by
  unfold acceptMove at h
  split at h
  · next hready =>
    obtain ⟨hv, hb⟩ : s.port.cmdValid = true ∧ busy s = false := by simpa [cmdReady] using hready
    split at h
    · have hi := readreg_of_starts (s := withdrawCommand s) hp ht h
      exact ⟨hv, hb, hi ▸ ‹_›⟩
    · cases h
      exact absurd hp ht
  · cases h
    exact absurd hp ht

/-- Taking the next move touches the model's own script and counter only. -/
theorem nextMove_frame (s : State) : ∃ ms n, (nextMove s).2 = { s with script := ms, freeIdx := n } := by
  obtain ⟨m, rest, -, h⟩ | ⟨-, h⟩ := nextMove_cases s <;> exact ⟨_, _, congrArg Prod.snd h⟩

/-- A step that starts an idle SEQ accepts the READREG on the port. -/
theorem readreg_of_step (hp : s.seq.ph = .idle) (ht : t.seq.ph ≠ .idle) (h : step s = .next t) :
    s.port.cmdValid = true ∧ busy s = false ∧ decodeCommand s.port.cmd = .ok (.readreg t.seq.sa t.seq.ra t.seq.cnt) := by
  obtain ⟨ms, n, hn⟩ := nextMove_frame s
  have hrun : runMove (nextMove s).1 { s with script := ms, freeIdx := n } = .next t := hn ▸ h
  have haccept : (nextMove s).1 = .accept := by
    by_contra hm
    exact ht (idle_of_runMove (s := { s with script := ms, freeIdx := n }) hm hp hrun)
  rw [haccept] at hrun
  exact readreg_of_acceptMove (s := { s with script := ms, freeIdx := n }) hp ht hrun

/-- Settles O42: from IDLE the acceptance, and from any phase the row of `PhaseMove`. -/
theorem phaseMovesAlongTable : Obligations.PhaseMovesAlongTable := by
  intro s t h
  have hmove := phaseMove_step h
  refine ⟨hmove.table, fun hs ht => readreg_of_step hs ht h, hmove.advances, fun hs ht => ?_⟩
  cases hmove.ends hs ht with
  | ok hp hl hw hr => exact .inl ⟨hp, hl, hw, hr⟩
  | protocolError hw hr => exact .inr (.inl ⟨hw, hr⟩)
  | timeout hd hb hr => exact .inr (.inr (.inl ⟨hd, hb, hr⟩))
  | reset hr => exact .inr (.inr (.inr hr))

end Sys2Proof.Proofs
end

section
/-! PROOFS. The events of a scripted READREG (O49): how R105's loop can end, by induction over the submits, and then what its
log is along R105's list. -/

namespace Sys2Proof.Proofs

open Sys2Proof.Machine Sys2Proof.Laws

/-! ## How the loop can end -/

/-- A submit of R105's list, with the status it is checked against. -/
abbrev CheckedSubmit := Machine.Action × Option StatusName

/-- The first answers are to the submits `front`, all of them pass, and `w` is the submit after them. -/
structure PassedUpTo (c : Params) (ws : List CheckedSubmit) (answers : List (Byte × Byte))
    (front : List CheckedSubmit) (w : CheckedSubmit) : Prop where
  isPrefix : front ++ [w] <+: ws
  answered : front.length ≤ answers.length
  pass : ∀ p ∈ front.zip answers, passes c p.1.2 p.2.1 = true

/-- The events of submits with their answers. -/
def exchanges (ws : List CheckedSubmit) (answers : List (Byte × Byte)) : List Event :=
  (List.zipWith exchange ws answers).flatten

/-- The CW_STOP that `finish()` submits (R103). -/
def finalStop (c : Params) : List Event := if c.stopExplicit then [.submit .stop] else []

/-- R105's loop ends with all submits answered, at a failed check, or for want of an answer. -/
inductive LoopEnds (c : Params) (ws : List CheckedSubmit) (answers : List (Byte × Byte)) (buf : List Byte) :
    ScriptResult → List Event → Prop
  | ok {bytes : List Byte} (hall : ws.length ≤ answers.length)
      (hbytes : bytes.length = buf.length + ws.countP (·.1.receives)) :
      LoopEnds c ws answers buf (.ok bytes) (exchanges ws answers ++ finalStop c)
  | protocolError {front : List CheckedSubmit} {w : CheckedSubmit} {status data : Byte}
      (hfront : PassedUpTo c ws answers front w) (hanswer : answers[front.length]? = some (status, data))
      (hfail : passes c w.2 status = false) :
      LoopEnds c ws answers buf (.err .protocolError)
        (exchanges front answers ++ [.submit w.1, completionEvent w.1 status data])
  | unanswered {front : List CheckedSubmit} {w : CheckedSubmit} {r : ScriptResult}
      (hfront : PassedUpTo c ws answers front w) (hlen : front.length = answers.length) (hr : r = unanswered c) :
      LoopEnds c ws answers buf r (exchanges front answers ++ [.submit w.1])

section
variable {c : Params} {ws front : List CheckedSubmit} {w : CheckedSubmit} {answers : List (Byte × Byte)} {buf : List Byte}
  {r : ScriptResult} {log : List Event}

theorem PassedUpTo.nil (w : CheckedSubmit) : PassedUpTo c (w :: ws) answers [] w :=
  ⟨List.prefix_append [w] ws, Nat.zero_le _, nofun⟩

theorem PassedUpTo.cons {v : CheckedSubmit} {answer : Byte × Byte} (hpass : passes c v.2 answer.1 = true)
    (h : PassedUpTo c ws answers front w) :
    PassedUpTo c (v :: ws) (answer :: answers) (v :: front) w where
  isPrefix := List.cons_prefix_cons.mpr ⟨rfl, h.isPrefix⟩
  answered := Nat.succ_le_succ h.answered
  pass := List.forall_mem_cons.mpr ⟨hpass, h.pass⟩

/-- An answer that passes puts its exchange before what follows. -/
theorem LoopEnds.cons {a : Machine.Action} {e : Option StatusName} {status data : Byte} (hpass : passes c e status = true)
    (h : LoopEnds c ws answers (if a.receives then buf ++ [data] else buf) r log) :
    LoopEnds c ((a, e) :: ws) ((status, data) :: answers) buf r (.submit a :: completionEvent a status data :: log) := by
  have hcons {front : List CheckedSubmit} {w : CheckedSubmit} (hfront : PassedUpTo c ws answers front w) :
      PassedUpTo c ((a, e) :: ws) ((status, data) :: answers) ((a, e) :: front) w := hfront.cons hpass
  cases h with
  | ok hall hbytes =>
    refine .ok (Nat.succ_le_succ hall) (hbytes.trans ?_)
    rw [List.countP_cons]
    cases a.receives with
    | false => simp
    | true => simp; omega
  | protocolError hfront hanswer hfail => exact .protocolError (hcons hfront) hanswer hfail
  | unanswered hfront hlen hr => exact .unanswered (hcons hfront) (congrArg (· + 1) hlen) hr

theorem loopEnds_runSequence (c : Params) (ws : List CheckedSubmit) (answers : List (Byte × Byte)) (buf : List Byte) :
    LoopEnds c ws answers buf (runSequence c ws answers buf).1 (runSequence c ws answers buf).2 := by
  induction ws generalizing answers buf with
  | nil => exact .ok (Nat.zero_le _) rfl
  | cons w ws ih =>
    obtain ⟨a, e⟩ := w
    cases answers with
    | nil => exact .unanswered (.nil (a, e)) rfl rfl
    | cons answer answers =>
      obtain ⟨status, data⟩ := answer
      by_cases hpass : passes c e status = true
      · rw [runSequence_pass hpass]
        exact (ih answers _).cons hpass
      · rw [runSequence_fail hpass]
        exact .protocolError (.nil (a, e)) rfl (eq_false_of_ne_true hpass)

/-! ## The submits of a log -/

theorem submits_append (l l' : List Event) : submits (l ++ l') = submits l ++ submits l' := List.filterMap_append

theorem submits_submit (a : Machine.Action) (l : List Event) : submits (.submit a :: l) = a :: submits l := rfl

/-- A completion is no submit. -/
theorem submits_completionEvent (a : Machine.Action) (status data : Byte) (l : List Event) :
    submits (completionEvent a status data :: l) = submits l := by
  unfold completionEvent
  split <;> rfl

theorem submits_exchanges (h : ws.length ≤ answers.length) : submits (exchanges ws answers) = ws.map Prod.fst := by
  induction ws generalizing answers with
  | nil => rfl
  | cons w ws ih =>
    cases answers with
    | nil => simp at h
    | cons answer answers =>
      change submits (.submit w.1 :: completionEvent w.1 answer.1 answer.2 :: exchanges ws answers) = _
      rw [submits_submit, submits_completionEvent, ih (Nat.le_of_succ_le_succ h), List.map_cons]

theorem submits_finalStop (c : Params) : submits (finalStop c) = if c.stopExplicit then [.stop] else [] := by
  unfold finalStop
  split <;> rfl

/-- The submits of a READREG in order (R110). -/
theorem readSequence_actions (c : Params) (sa ra : Byte) (n : Nat) :
    (readSequence c sa ra n).map Prod.fst =
      [.start, .tx (addressByte sa .write), .tx ra, .rstart, .tx (addressByte sa .read)]
        ++ List.replicate (n - 1) .rxAck ++ [.rxNack] := by
  simp [readSequence]

/-- A READREG of a positive count receives that many bytes. -/
theorem readSequence_receives (c : Params) (sa ra : Byte) {n : Nat} (hn : 1 ≤ n) :
    (readSequence c sa ra n).countP (·.1.receives) = n := by
  simp [readSequence, Action.receives, List.countP_replicate]
  omega

/-- After the passed submits and the one after them, the log's submits are a non-empty beginning of the list. -/
theorem PassedUpTo.submits (h : PassedUpTo c ws answers front w) {tail : List Event} (htail : submits tail = [w.1]) :
    submits (exchanges front answers ++ tail) ≠ [] ∧ submits (exchanges front answers ++ tail) <+: ws.map Prod.fst := by
  have heq : Machine.submits (exchanges front answers ++ tail) = (front ++ [w]).map Prod.fst := by
    rw [submits_append, submits_exchanges h.answered, htail, List.map_append, List.map_singleton]
  rw [heq]
  exact ⟨by simp, h.isPrefix.map Prod.fst⟩

/-- A loop that ends in `Err` has submitted a non-empty beginning of the list. -/
theorem LoopEnds.submits_of_err {e : Reason} (h : LoopEnds c ws answers buf r log) (hr : r = .err e) :
    submits log ≠ [] ∧ submits log <+: ws.map Prod.fst := by
  cases h with
  | ok => cases hr
  | protocolError hfront => exact hfront.submits (by rw [submits_submit, submits_completionEvent]; rfl)
  | unanswered hfront => exact hfront.submits rfl

/-- Only a bound turns the want of an answer into a Timeout (R105). -/
theorem unanswered_eq_err {e : Reason} (h : unanswered c = .err e) : c.timeoutPolls.isSome = true ∧ e = .timeout := by
  unfold Machine.unanswered at h
  split at h <;> cases h
  exact ⟨‹_›, rfl⟩

end

/-- Settles O49: the loop's three ends along R105's list. -/
theorem scriptedReadregTrace : Obligations.ScriptedReadregTrace := by
  intro c sa ra n answers r log hn h
  have hend : LoopEnds c (readSequence c sa ra n) answers [] r log := by
    have hloop := loopEnds_runSequence c (readSequence c sa ra n) answers []
    rwa [← runReadreg, h] at hloop
  refine ⟨fun bytes hr => ?_, fun hr => ?_, fun hr => ?_, fun e hr => ?_⟩
  · cases hend with
    | ok hall hbytes =>
      cases hr
      rw [readSequence_receives c sa ra hn, List.length_nil, Nat.zero_add] at hbytes
      refine ⟨hbytes, rfl, ?_⟩
      rw [submits_append, submits_exchanges hall, readSequence_actions, submits_finalStop]
    | protocolError => cases hr
    | unanswered _ _ hu =>
      rw [hu, Machine.unanswered] at hr
      split at hr <;> cases hr
  · cases hend with
    | ok => cases hr
    | protocolError hfront hanswer hfail =>
      exact ⟨_, _, _, _, hfront.isPrefix, rfl, hanswer, hfail, hfront.pass⟩
    | unanswered _ _ hu => exact absurd (unanswered_eq_err (hu.symm.trans hr)).2 nofun
  · cases hend with
    | ok => cases hr
    | protocolError => cases hr
    | unanswered hfront hlen hu =>
      obtain ⟨hbound, -⟩ := unanswered_eq_err (hu.symm.trans hr)
      exact ⟨hbound, _, _, hfront.isPrefix, hlen, rfl, hfront.pass⟩
  · rw [← readSequence_actions c]
    exact hend.submits_of_err hr

end Sys2Proof.Proofs
end

section
/-! PROOFS. The acceptance of POLLCHAR and WRITECHAR (O28 to O31), CCH's step while it sends (O32), and a whole POLLCHAR with echo
(O52): the acceptance, then the echo byte by byte. -/

namespace Sys2Proof.Proofs

open Sys2Proof.Machine Sys2Proof.Laws

variable {s : State} {b : Byte} {queue : List Byte}

/-! ## The acceptances -/

theorem exec_pollchar_nil (echo : Bool) (hb : busy s = false) (hq : s.serial.rxq = []) :
    exec (.pollchar echo) s = .next (pollNothing (beginCommand .pollchar s)) := by
  simp [exec, execPollchar, hb, hq]

theorem exec_pollchar_cons (echo : Bool) (hb : busy s = false) (hq : s.serial.rxq = b :: queue) :
    exec (.pollchar echo) s = .next (pollByte echo b queue (beginCommand .pollchar s)) := by
  simp [exec, execPollchar, hb, hq]

theorem exec_writechar (b : Byte) (hb : busy s = false) :
    exec (.writechar b) s = .next (beginSend .write b [b] (beginCommand .writechar s)) := by
  simp [exec, execWritechar, hb]

/-- Settles O28: the model's `pollNothing`, field by field. -/
theorem pollcharWithoutByte : Obligations.PollcharWithoutByte := fun _ echo hb hq => exec_pollchar_nil echo hb hq

/-- Settles O29: the model's `pollByte` without echo, field by field. -/
theorem pollcharTakesOldestByte : Obligations.PollcharTakesOldestByte := fun _ _ _ hb hq => exec_pollchar_cons false hb hq

/-- Settles O30: the model's `pollByte` with echo, field by field. -/
theorem pollcharWithEchoStartsSending : Obligations.PollcharWithEchoStartsSending :=
  fun _ _ _ hb hq => exec_pollchar_cons true hb hq

/-- Settles O31: the model's `beginSend`, field by field. -/
theorem writecharAcceptance : Obligations.WritecharAcceptance := fun _ b hb => exec_writechar b hb

/-! ## CCH's step while it sends -/

theorem sendStep_noRoom (hroom : s.serial.txRoom = false) : sendStep s = s := by
  obtain h | ⟨_, _, -, -, hr, -⟩ | ⟨_, -, -, hr, -⟩ := sendStep_cases s
  · exact h
  · exact absurd (hr.symm.trans hroom) nofun
  · exact absurd (hr.symm.trans hroom) nofun

theorem sendStep_more (hc : s.cch.cph ≠ .idle) (hroom : s.serial.txRoom = true) (hq : s.cch.cq = b :: queue)
    (hne : queue ≠ []) : sendStep s = { pushByte b s with cch.cq := queue } := by
  simp [sendStep, hc, hq, hroom, hne]

theorem sendStep_last (hc : s.cch.cph ≠ .idle) (hroom : s.serial.txRoom = true) (hq : s.cch.cq = [b]) :
    sendStep s = endSend (pushByte b s) := by
  simp [sendStep, hc, hq, hroom]

/-- The echo sent: its bytes are pushed and the result is there (R133). -/
def echoSent (bytes : List Byte) (s : State) : State :=
  { s with
    cch := { s.cch with cph := .idle, cq := [], cres := some ⟨true, s.cch.cb⟩ }
    port.resValid := true
    evlog := s.evlog ++ bytes.map .push }

theorem sendStep_lastEcho (hc : s.cch.cph = .echo) (hroom : s.serial.txRoom = true) (hq : s.cch.cq = [b]) :
    sendStep s = echoSent [b] s := by
  rw [sendStep_last (by simp [hc]) hroom hq]
  simp [endSend, endCommand, pushByte, echoSent, hc]

/-- Settles O32: without room, with more to send, and the last byte of either phase. -/
theorem sendStepWaitsOrPushes : Obligations.SendStepWaitsOrPushes := by
  intro s b queue hc hq
  refine ⟨fun hroom => ?_, fun hroom hne => ?_, fun hroom hnil hecho => ?_, fun hroom hnil hwrite => ?_⟩
  · exact congrArg Host.Outcome.next (sendStep_noRoom hroom)
  · exact congrArg Host.Outcome.next (sendStep_more hc hroom hq hne)
  · subst hnil
    exact congrArg Host.Outcome.next (sendStep_lastEcho hecho hroom hq)
  · subst hnil
    rw [runMove, sendStep_last hc hroom hq]
    simp [endSend, endCommand, pushByte, hwrite]

/-! ## A POLLCHAR with echo -/

theorem echoSent_cons (b : Byte) (bytes queue : List Byte) (s : State) :
    echoSent bytes { pushByte b s with cch.cq := queue } = echoSent (b :: bytes) s := by
  simp [echoSent]

/-- With room throughout, one step of CCH for each byte sends the echo. -/
theorem core_run_echo (hc : s.cch.cph = .echo) (hroom : s.serial.txRoom = true) (hq : s.cch.cq = b :: queue)
    (rest : List Move) :
    core.run (queue.length + 1) { s with script := List.replicate (queue.length + 1) .cch ++ rest } =
      .next (echoSent (b :: queue) { s with script := rest }) := by
  induction queue generalizing s b with
  | nil =>
    have hlast : sendStep { s with script := rest } = echoSent [b] { s with script := rest } :=
      sendStep_lastEcho hc hroom hq
    exact core_run_succ 0 rfl (congrArg Host.Outcome.next hlast)
  | cons b' queue ih =>
    have hmore (ms : List Move) : sendStep { s with script := ms } =
        { pushByte b { s with script := ms } with cch.cq := b' :: queue } :=
      sendStep_more (by simp [hc]) hroom hq (List.cons_ne_nil b' queue)
    calc core.run (queue.length + 2) { s with script := List.replicate (queue.length + 2) .cch ++ rest }
        = core.run (queue.length + 1) { pushByte b s with
            cch.cq := b' :: queue, script := List.replicate (queue.length + 1) .cch ++ rest } :=
          core_run_succ _ rfl (congrArg Host.Outcome.next (hmore _))
      _ = .next (echoSent (b' :: queue) { pushByte b s with cch.cq := b' :: queue, script := rest }) :=
          ih (s := { pushByte b s with cch.cq := b' :: queue }) hc hroom rfl
      _ = .next (echoSent (b :: b' :: queue) { s with script := rest }) :=
          congrArg Host.Outcome.next (echoSent_cons b (b' :: queue) (b' :: queue) { s with script := rest })

/-- An echo sent by an idle block whose command port is empty pushes its bytes and leaves the host free to go on. -/
theorem pushes_echoSent (hv : s.port.cmdValid = false) (hp : s.seq.ph = .idle) (bytes : List Byte) (ms : List Move) :
    Pushes bytes s (echoSent bytes { s with script := ms }) where
  evlog := rfl
  ready := by simp [hostWaits, busy, echoSent, hv, hp]
  seq := rfl
  bus := rfl
  serial := rfl

/-- The POLLCHAR with echo taken from the port: the byte is off `RXQ`, the echo is to be sent (R133). -/
def echoTaken (b : Byte) (queue : List Byte) (s : State) : State :=
  pollByte true b queue (beginCommand .pollchar (withdrawCommand s))

theorem acceptMove_echo (hb : busy s = false) (hv : s.port.cmdValid = true) (hcmd : s.port.cmd = encodePollchar true)
    (hq : s.serial.rxq = b :: queue) : acceptMove s = .next (echoTaken b queue s) := by
  rw [acceptMove_ok hv hb (hcmd ▸ decodeCommand_encodePollchar true)]
  exact exec_pollchar_cons true hb hq

/-- Settles O52: the acceptance, then the echo of the byte and `ECHO_EOL`. -/
theorem echoPushesByteAndTerminator : Obligations.EchoPushesByteAndTerminator := by
  intro s b queue rest hb hv hcmd hq hroom hs
  have haccept (ms : List Move) : runMove .accept { s with script := ms } = .next (echoTaken b queue { s with script := ms }) :=
    acceptMove_echo hb hv hcmd hq
  have hrun : core.run (s.cfg.echoEol.length + 2) s =
      .next (echoSent (b :: s.cfg.echoEol) (echoTaken b queue { s with script := rest })) :=
    (core_run_succ _ hs (haccept _)).trans (core_run_echo (s := echoTaken b queue s) rfl hroom rfl rest)
  have hpush := pushes_echoSent (s := echoTaken b queue s) rfl (busy_eq_false hb).1 (b :: s.cfg.echoEol) rest
  have htaken : txlog (echoTaken b queue s) = txlog s := (charFrame_pollByte true b queue (withdrawCommand s)).txlog
  exact ⟨_, hrun, htaken ▸ hpush.txlog, rfl, rfl, busy_of_hostWaits hpush.ready, rfl, rfl⟩

end Sys2Proof.Proofs
end

section
/-! PROOFS. Input bytes in arrival order (O44): what each operation of the block does to the bytes popped so far and queued. -/

namespace Sys2Proof.Proofs

open Sys2Proof.Machine Sys2Proof.Laws

variable {s t : State}

/-- The input bytes in order of arrival: those popped so far, then those still queued (R37, R139). -/
def inputOf (s : State) : List Byte := s.evlog.filterMap Event.popped? ++ s.serial.rxq

theorem inputOf_silent (hl : t.evlog = s.evlog) (hq : t.serial.rxq = s.serial.rxq) : inputOf t = inputOf s := by
  rw [inputOf, hl, hq, ← inputOf]

theorem inputOf_event {e : Event} (he : e.popped? = none) (hl : t.evlog = s.evlog ++ [e])
    (hq : t.serial.rxq = s.serial.rxq) : inputOf t = inputOf s := by
  simp [inputOf, hl, hq, he]

theorem popped_completionEvent (a : Machine.Action) (status data : Byte) :
    (completionEvent a status data).popped? = none := by
  unfold completionEvent
  split <;> rfl

theorem inputOf_controlStep {cw : ControlWord} (h : ControlStep cw s t) : inputOf t = inputOf s := by
  cases h with
  | poll => obtain ⟨-, h⟩ | ⟨l, -, -, h⟩ | ⟨l, -, -, h⟩ := pollAgain_cases s <;> rw [h] <;> rfl
  | fail => rfl
  | poke =>
    obtain ⟨data, poked, idx, h⟩ := readyData_frame cw s
    rw [h]
    exact inputOf_event rfl rfl rfl
  | done =>
    obtain ⟨-, h⟩ | ⟨-, h⟩ := finish_cases (storeByte s) <;> rw [h]
    · exact inputOf_event rfl rfl rfl
    · rfl
  | _ => exact inputOf_event rfl rfl rfl

/-- A byte taken goes from the head of the queue to the end of the popped ones. -/
theorem inputOf_pollByte (echo : Bool) {b : Byte} {rest : List Byte} (hq : s.serial.rxq = b :: rest) :
    inputOf (pollByte echo b rest (beginCommand .pollchar s)) = inputOf s := by
  cases echo <;> simp [inputOf, pollByte, hq, Event.popped?]

theorem inputOf_commandStep {i : Instr} (h : CommandStep s i t) : inputOf t = inputOf s := by
  cases h with
  | readreg => exact inputOf_event rfl rfl rfl
  | pollByte _ hq => exact inputOf_pollByte _ hq
  | _ => rfl

/-- Only the arrival of a byte adds to the input, at its end. -/
theorem inputOf_blockStep (h : BlockStep s t) : inputOf t = inputOf s ∨ ∃ b, inputOf t = inputOf s ++ [b] := by
  cases h with
  | command h => exact .inl (inputOf_commandStep h)
  | control h => exact .inl (inputOf_controlStep h)
  | push | pushLast => exact .inl (inputOf_event rfl rfl rfl)
  | complete => exact .inl (inputOf_event (popped_completionEvent _ _ _) rfl rfl)
  | arrive b => exact .inr ⟨b, (List.append_assoc ..).symm⟩
  | _ => exact .inl rfl

/-- Settles O44: a change around the block touches neither the log nor `RXQ`. -/
theorem inputDeliveredInArrivalOrder : Obligations.InputDeliveredInArrivalOrder := by
  intro s t h
  obtain ⟨u, haround, hblock⟩ := stepsTo_step h
  have hinput := inputOf_blockStep hblock
  rwa [inputOf_silent haround.evlog haround.rxq] at hinput

end Sys2Proof.Proofs
end

section
/-! PROOFS. The hex helpers (O8) and the tick scheduler: what one tick does (O53) and what a thousand do (O54). -/

namespace Sys2Proof.Proofs

open Sys2Proof.Machine Sys2Proof.Laws

variable {s : State}

/-! ## The hex helpers -/

/-- `hexToInt` over the character's code, range by range (R178). -/
theorem hexToInt_eq (ch : Byte) : hexToInt ch =
    if 0x30 ≤ ch.toNat ∧ ch.toNat ≤ 0x39 then (ch.toNat : Int) - 0x30
    else if 0x41 ≤ ch.toNat ∧ ch.toNat ≤ 0x46 then (ch.toNat : Int) - 0x41 + 10
    else if 0x61 ≤ ch.toNat ∧ ch.toNat ≤ 0x66 then (ch.toNat : Int) - 0x61 + 10
    else -1 := by
  have hch := ch.isLt
  simp only [hexToInt, hexDigit, Bool.and_eq_true, decide_eq_true_eq, BitVec.le_def, BitVec.reduceToNat]
  split_ifs
  · simp; omega
  · simp; omega
  · simp; omega
  · rfl

/-- Two nibbles, the high one first, are a byte's two digits (R179). -/
theorem byteHex_append (hi lo : Nibble) : byteHex (hi ++ lo) = [intToHex hi, intToHex lo] := by
  have hhigh : (hi ++ lo).extractLsb' 4 4 = hi := by
    apply BitVec.eq_of_toNat_eq
    rw [toNat_field, toNat_append_eq]
    omega
  have hlow : (hi ++ lo).extractLsb' 0 4 = lo := by
    apply BitVec.eq_of_toNat_eq
    rw [toNat_field, toNat_append_eq]
    omega
  rw [byteHex, hhigh, hlow]

/-- Settles O8: a byte by the ranges of its code, a nibble by its sixteen values. -/
theorem hexHelpersAgree : Obligations.HexHelpersAgree :=
  ⟨hexToInt_eq, by decide, by decide, byteHex_append⟩

/-! ## One tick -/

theorem schedulerTick_changed (h : s.latch ≠ s.host.lastSeen) : schedulerTick s =
    { s with host := { s.host with lastSeen := s.latch, nextPattern := ~~~s.latch, elapsed := 0 } } := if_pos h

theorem schedulerTick_counts (hl : s.latch = s.host.lastSeen) (he : s.host.elapsed + 1 ≠ 1000) :
    schedulerTick s = { s with host := { s.host with elapsed := s.host.elapsed + 1 } } :=
  (if_neg (not_not_intro hl)).trans (if_neg he)

theorem schedulerTick_toggles (hl : s.latch = s.host.lastSeen) (he : s.host.elapsed + 1 = 1000) :
    schedulerTick s = { s with
      latch := s.host.nextPattern
      host := { s.host with
        lastSeen := if s.cfg.ownWriteSeen then s.host.nextPattern else s.host.lastSeen
        nextPattern := ~~~s.host.nextPattern
        elapsed := 0 } } :=
  (if_neg (not_not_intro hl)).trans (if_pos he)

theorem tickCallback_heldOff (hc : s.cfg.maskConnected = true) (hm : maskReq s = true) : tickCallback s = s := by
  simp [tickCallback, hc, hm]

theorem tickCallback_lost (hf : s.cfg.menuFromTick = true) (ha : menuActive s = true) : tickCallback s = s := by
  simp [tickCallback, hf, ha]

theorem tickCallback_withoutMenu (hm : s.cfg.maskConnected = false ∨ maskReq s = false) (hf : s.cfg.menuFromTick = false) :
    tickCallback s = schedulerTick s := by
  obtain hm | hm := hm <;> simp [tickCallback, hm, hf]

theorem tickCallback_withMenu (hm : s.cfg.maskConnected = false ∨ maskReq s = false) (hf : s.cfg.menuFromTick = true)
    (ha : menuActive s = false) : tickCallback s = menuInvoke (schedulerTick s) := by
  obtain hm | hm := hm <;> simp [tickCallback, hm, hf, ha]

/-- Settles O53: the scheduler's three branches, then the callback's four. -/
theorem schedulerTickEffects : Obligations.SchedulerTickEffects := by
  intro s
  refine ⟨schedulerTick_changed, fun hl he => ?_, schedulerTick_counts, fun hm => ⟨fun hf => ?_, fun hf ha => ?_⟩,
    fun hf ha => ?_, fun hc hm => ?_⟩
  · rw [schedulerTick_toggles hl he]
    exact ⟨rfl, rfl, rfl, rfl⟩
  · exact congrArg _ (tickCallback_withoutMenu hm hf)
  · exact congrArg _ (tickCallback_withMenu hm hf ha)
  · exact congrArg _ (tickCallback_lost hf ha)
  · exact congrArg _ (tickCallback_heldOff hc hm)

/-! ## A thousand ticks -/

/-- The elapsed count at `n` (R162). -/
def withElapsed (n : Nat) (s : State) : State := { s with host.elapsed := n }

/-- From an elapsed count of 0, fewer than a thousand undisturbed ticks only count (R162). -/
theorem schedulerTick_iterate {n : Nat} (hl : s.latch = s.host.lastSeen) (he : s.host.elapsed = 0) (hn : n < 1000) :
    schedulerTick^[n] s = withElapsed n s := by
  induction n with
  | zero => exact congrArg (withElapsed · s) he
  | succ n ih =>
    rw [Function.iterate_succ_apply', ih (by omega)]
    exact schedulerTick_counts (s := withElapsed n s) hl (by change n + 1 ≠ 1000; omega)

/-- Settles O54: the thousandth tick is the one that finds the count at 999. -/
theorem latchTogglesAtThousandthTick : Obligations.LatchTogglesAtThousandthTick := by
  intro s n hl he hn
  have hthousand : schedulerTick^[1000] s = schedulerTick (withElapsed 999 s) := by
    rw [Function.iterate_succ_apply' schedulerTick 999, schedulerTick_iterate hl he (by omega)]
  rw [schedulerTick_iterate hl he hn, hthousand, schedulerTick_toggles (s := withElapsed 999 s) hl rfl]
  exact ⟨rfl, rfl, rfl⟩

end Sys2Proof.Proofs
end

section
/-! PROOFS. An invocation of the menu whose screen is printed and whose poll finds no byte (O56): its moves one by one. -/

namespace Sys2Proof.Proofs

open Sys2Proof.Machine Sys2Proof.Laws

variable {s : State}

/-- The host has begun an invocation: its poll is to be issued (R155). -/
def invoked (s : State) : State :=
  { s with host := { s.host with
    menu := { s.host.menu with currentState := settleState s.host.menu.currentState }
    prog := [.issue (.pollchar s.cfg.menuEcho), .dispatch] } }

/-- The invocation's POLLCHAR is on the command port (R34). -/
def pollIssued (s : State) : State :=
  presentCommand (encodePollchar s.cfg.menuEcho)
    { invoked s with host := { (invoked s).host with prog := [.dispatch], awaiting := true } }

/-- The POLLCHAR has found no byte (R133, R138). -/
def pollEmpty (s : State) : State := pollNothing (beginCommand .pollchar (withdrawCommand (pollIssued s)))

/-! ## The host's moves -/

theorem hostWaits_eq_false (hv : s.port.cmdValid = false) (hb : busy s = false)
    (ha : s.host.awaiting = false ∨ s.port.resValid = true) : hostWaits s = false := by
  obtain ha | ha := ha <;> simp [hostWaits, hv, hb, ha]

theorem menuActive_eq_false (h : menuActive s = false) : s.host.prog = [] ∧ s.host.awaiting = false := by
  simpa [menuActive] using h

/-- The settled menu state (R151). -/
theorem settleState_eq (m : MenuState) : settleState m = if m = .uninitialized then .main else m := by
  cases m <;> rfl

/-- A host that does not wait presents the word of its next operation. -/
theorem hostMove_presents {i : Instr} {w : CmdWord} {prog : List HostOp} (hw : hostWaits s = false)
    (hprog : s.host.prog = .issue i :: prog) (hi : commandWord i = some w) : hostMove s =
      .next (presentCommand w { s with host := { s.host with prog := prog, awaiting := true } }) := by
  simp [hostMove, hw, hprog, hostIssue, hi, hostGoesOn]

theorem hostMove_dispatches {prog : List HostOp} (hw : hostWaits s = false) (hprog : s.host.prog = .dispatch :: prog) :
    hostMove s = .next (menuDispatch (hostGoesOn prog s)) := by
  simp [hostMove, hw, hprog, menuResume]

/-- Without a byte, and with the screen printed, the menu has nothing to do (R155, R177). -/
theorem menuDispatch_nothing {v : Byte} (hp : s.host.menu.screenPrinted = true) (hc : s.cch.cres = some ⟨false, v⟩) :
    menuDispatch s = s := by
  simp [menuDispatch, screenOps, keyOps, hostCall, hp, hc]

/-! ## The invocation's moves -/

/-- The next invocation will poll, find no byte and have no screen to print. -/
structure PollReady (s : State) : Prop where
  running : s.host.running = true
  printed : s.host.menu.screenPrinted = true
  inactive : menuActive s = false
  notBusy : busy s = false
  noCommand : s.port.cmdValid = false
  noInput : s.serial.rxq = []

theorem menuInvoke_of_pollReady (h : PollReady s) : menuInvoke s = invoked s := by
  obtain ⟨hprog, -⟩ := menuActive_eq_false h.inactive
  simp [menuInvoke, invoked, h.running, h.inactive, hprog]

theorem hostMove_invoked (h : PollReady s) : hostMove (invoked s) = .next (pollIssued s) := by
  obtain ⟨-, hawait⟩ := menuActive_eq_false h.inactive
  exact hostMove_presents (s := invoked s) (hostWaits_eq_false h.noCommand h.notBusy (.inl hawait)) rfl rfl

theorem acceptMove_pollIssued (h : PollReady s) : acceptMove (pollIssued s) = .next (pollEmpty s) := by
  rw [acceptMove_ok (s := pollIssued s) rfl h.notBusy (decodeCommand_encodePollchar _)]
  exact exec_pollchar_nil _ h.notBusy h.noInput

theorem hostMove_pollEmpty (h : PollReady s) : hostMove (pollEmpty s) = .next (hostGoesOn [] (pollEmpty s)) := by
  rw [hostMove_dispatches (s := pollEmpty s) (hostWaits_eq_false rfl h.notBusy (.inr rfl)) rfl]
  exact congrArg _ (menuDispatch_nothing (s := hostGoesOn [] (pollEmpty s)) h.printed rfl)

theorem PollReady.withScript (h : PollReady s) (ms : List Move) : PollReady { s with script := ms } := { h with }

/-- The three moves after the one that begins the invocation. -/
theorem core_run_emptyPoll (h : PollReady s) (rest : List Move) :
    core.run 3 (menuInvoke { s with script := .host :: .accept :: .host :: rest }) =
      .next (hostGoesOn [] (pollEmpty { s with script := rest })) := by
  rw [menuInvoke_of_pollReady (h.withScript _)]
  calc core.run 3 (invoked { s with script := .host :: .accept :: .host :: rest })
      = core.run 2 (pollIssued { s with script := .accept :: .host :: rest }) :=
        core_run_succ 2 rfl (hostMove_invoked (h.withScript (.accept :: .host :: rest)))
    _ = core.run 1 (pollEmpty { s with script := .host :: rest }) :=
        core_run_succ 1 rfl (acceptMove_pollIssued (h.withScript (.host :: rest)))
    _ = .next (hostGoesOn [] (pollEmpty { s with script := rest })) :=
        core_run_succ 0 rfl (hostMove_pollEmpty (h.withScript rest))

/-- Outside the host, CCH and the port an empty poll changes nothing but the count of free values (R138). -/
theorem pollEmpty_frame (s : State) : (pollEmpty s).latch = s.latch ∧ (pollEmpty s).seq = s.seq ∧ (pollEmpty s).bus = s.bus ∧
    (pollEmpty s).evlog = s.evlog ∧ (pollEmpty s).script = s.script := by
  simp [pollEmpty, pollNothing, pollIssued, invoked]

/-- The invocation leaves the host as it was, but that UNINITIALIZED is settled (R151). -/
theorem host_afterEmptyPoll (h : PollReady s) : (hostGoesOn [] (pollEmpty s)).host = { s.host with menu := { s.host.menu with
    currentState := if s.host.menu.currentState = .uninitialized then .main else s.host.menu.currentState } } := by
  obtain ⟨hprog, hawait⟩ := menuActive_eq_false h.inactive
  have hhost : (hostGoesOn [] (pollEmpty s)).host = { s.host with
      menu := { s.host.menu with currentState := settleState s.host.menu.currentState }, prog := [], awaiting := false } := rfl
  simp only [hhost, settleState_eq, hprog, hawait]

/-! ## Either caller -/

theorem pollReady_schedulerTick (h : PollReady s) : PollReady (schedulerTick s) := by
  unfold schedulerTick
  split_ifs <;> exact { h with }

theorem schedulerTick_withScript (s : State) (ms : List Move) :
    schedulerTick { s with script := ms } = { schedulerTick s with script := ms } := by
  unfold schedulerTick
  split_ifs <;> rfl

theorem runMove_mainLoop (hf : s.cfg.menuFromTick = false) : runMove .mainLoop s = .next (menuInvoke s) := by
  simp [runMove, mainLoopCall, hf]

theorem runMove_tick (h : PollReady s) (hf : s.cfg.menuFromTick = true) :
    runMove .tick s = .next (menuInvoke (schedulerTick s)) := by
  obtain ⟨hph, -⟩ := busy_eq_false h.notBusy
  exact congrArg _ (tickCallback_withMenu (.inr (by simp [maskReq, hph])) hf h.inactive)

/-- Settles O56: either caller begins the invocation, whose three moves put the host's program back to nothing. -/
theorem noInputPollIsIdempotent : Obligations.NoInputPollIsIdempotent := by
  intro s u m rest hr hp ha hb hv hq hcaller hs
  have hs' : PollReady s := ⟨hr, hp, ha, hb, hv, hq⟩
  obtain ⟨hu, hfirst⟩ : PollReady u ∧ ∀ ms, runMove m { s with script := ms } = .next (menuInvoke { u with script := ms }) := by
    obtain ⟨hf, rfl, rfl⟩ | ⟨hf, rfl, rfl⟩ := hcaller
    · exact ⟨hs', fun ms => runMove_mainLoop hf⟩
    · refine ⟨pollReady_schedulerTick hs', fun ms => ?_⟩
      rw [← schedulerTick_withScript]
      exact runMove_tick (hs'.withScript ms) hf
  have hrun : core.run 4 s = .next (hostGoesOn [] (pollEmpty { u with script := rest })) :=
    (core_run_succ 3 hs (hfirst _)).trans (core_run_emptyPoll hu rest)
  exact ⟨_, hrun, host_afterEmptyPoll (hu.withScript rest), pollEmpty_frame { u with script := rest }⟩

end Sys2Proof.Proofs
end

section
/-! PROOFS. The menu's keys: transitions and the printed flag (O57), EXIT (O55), the LED (O58), the two-nibble entry (O59), BUS_MENU's
read (O60). -/

namespace Sys2Proof.Proofs

open Sys2Proof.Machine Sys2Proof.Laws

variable {s t : State} {b : Byte}

/-! ## Which menu a key goes to -/

theorem menuKey_main (hm : s.host.menu.currentState = .main ∨ s.host.menu.currentState = .uninitialized) (b : Byte) :
    menuKey b s = mainKey b s := by
  obtain hm | hm := hm <;> rw [menuKey, hm]

theorem menuKey_secondary (hm : s.host.menu.currentState = .secondary) (b : Byte) : menuKey b s = secondaryKey b s := by
  rw [menuKey, hm]

theorem menuKey_ledToggle (hm : s.host.menu.currentState = .ledToggle) (b : Byte) : menuKey b s = ledKey b s := by
  rw [menuKey, hm]

theorem menuKey_busMenu (hm : s.host.menu.currentState = .busMenu) (b : Byte) : menuKey b s = busKey b s := by
  rw [menuKey, hm]

theorem menuKey_entry (hm : isEntryState s.host.menu.currentState) (b : Byte) : menuKey b s = .next (entryKey b s) := by
  obtain hm | hm := hm <;> rw [menuKey, hm]

/-! ## The printed flag -/

/-- From `s` to `t` the menu has either cleared the printed flag or kept both its state and the flag. -/
def ReprintsOrStays (s t : State) : Prop :=
  t.host.menu.screenPrinted = false ∨
    (t.host.menu.currentState = s.host.menu.currentState ∧ t.host.menu.screenPrinted = s.host.menu.screenPrinted)

theorem reprintsOrStays_unknownKey (h : unknownKey b s = .next t) : ReprintsOrStays s t := by
  unfold unknownKey at h
  split at h <;> cases h
  exact .inl rfl

theorem reprintsOrStays_mainKey (h : mainKey b s = .next t) : ReprintsOrStays s t := by
  unfold mainKey at h
  split_ifs at h
  case neg => exact reprintsOrStays_unknownKey h
  all_goals cases h
  · exact .inr ⟨rfl, rfl⟩
  · exact .inl rfl
  · exact .inl rfl
  · exact .inl rfl
  · exact .inr ⟨rfl, rfl⟩
  · exact .inl rfl
  · exact .inl rfl

theorem reprintsOrStays_secondaryKey (h : secondaryKey b s = .next t) : ReprintsOrStays s t := by
  unfold secondaryKey at h
  split_ifs at h
  · cases h; exact .inl rfl
  · cases h; exact .inl rfl
  · exact reprintsOrStays_unknownKey h

theorem reprintsOrStays_ledKey (h : ledKey b s = .next t) : ReprintsOrStays s t := by
  unfold ledKey at h
  split_ifs at h
  · cases h; exact .inr ⟨rfl, rfl⟩
  · cases h; exact .inr ⟨rfl, rfl⟩
  · cases h; exact .inr ⟨rfl, rfl⟩
  · cases h; exact .inr ⟨rfl, rfl⟩
  · cases h; exact .inl rfl
  · exact reprintsOrStays_unknownKey h

theorem reprintsOrStays_busKey (h : busKey b s = .next t) : ReprintsOrStays s t := by
  unfold busKey at h
  split_ifs at h
  · cases h; exact .inl rfl
  · cases h; exact .inl rfl
  · cases h; exact .inr ⟨rfl, rfl⟩
  · cases h; exact .inl rfl
  · exact reprintsOrStays_unknownKey h

theorem reprintsOrStays_entryKey (b : Byte) (s : State) : ReprintsOrStays s (entryKey b s) := by
  unfold entryKey
  split
  · exact .inl rfl
  · split
    · exact .inr ⟨rfl, rfl⟩
    · unfold entryDigit
      split
      · exact .inl rfl
      · exact .inr ⟨rfl, rfl⟩

theorem reprintsOrStays_menuKey (h : menuKey b s = .next t) : ReprintsOrStays s t := by
  unfold menuKey at h
  split at h
  · exact reprintsOrStays_mainKey h
  · exact reprintsOrStays_mainKey h
  · exact reprintsOrStays_secondaryKey h
  · exact reprintsOrStays_ledKey h
  · exact reprintsOrStays_busKey h
  · cases h; exact reprintsOrStays_entryKey b s
  · cases h; exact reprintsOrStays_entryKey b s
  · cases h; exact .inr ⟨rfl, rfl⟩

/-- Settles O57: every key of every menu clears the flag or keeps state and flag; the two self-transitions clear it. -/
theorem transitionClearsPrintedFlag : Obligations.TransitionClearsPrintedFlag := by
  refine ⟨fun s t b h => ?_, fun s hm => ?_, fun s hm => ?_⟩
  · obtain hclear | ⟨hstate, hflag⟩ := reprintsOrStays_menuKey h
    · exact ⟨fun _ => hclear, fun hset => absurd (hclear.symm.trans hset) nofun⟩
    · exact ⟨fun hne => absurd hstate hne, fun hset => hflag ▸ hset⟩
  · exact ⟨enter .main s, menuKey_main hm 0x63, rfl, rfl⟩
  · exact ⟨reprint s, menuKey_secondary hm 0x61, hm, rfl⟩

/-! ## EXIT and the LED -/

/-- Settles O55: an invocation asks the flag first, and `q` in MAIN is `enterExit`. -/
theorem exitStopsMenu : Obligations.ExitStopsMenu := by
  refine ⟨fun s hr => ?_, fun s hm => ?_⟩
  · simp [menuInvoke, hr]
  · exact ⟨enterExit s, menuKey_main (.inl hm) 0x71, rfl, rfl, rfl⟩

/-- Settles O58: a zero latch goes on, any other one off. -/
theorem ledKeyTogglesLatch : Obligations.LedKeyTogglesLatch := by
  intro s hm
  have hkey : menuKey 0x61 s = .next (if s.latch ≠ 0 then ledOff s else ledOn s) := menuKey_ledToggle hm 0x61
  by_cases hl : s.latch = 0
  · rw [if_neg (not_not_intro hl)] at hkey
    simp only [if_pos hl]
    exact ⟨ledOn s, hkey, rfl, rfl, rfl⟩
  · rw [if_pos hl] at hkey
    simp only [if_neg hl]
    exact ⟨ledOff s, hkey, rfl, rfl, rfl⟩

/-! ## The two-nibble entry -/

/-- The menu with this digit entry (R150). -/
def withEntry (e : DigitEntry) (s : State) : State := { s with host.menu.entry := e }

theorem entryKey_digit {n : Nibble} (hd : hexDigit b = some n) (s : State) : entryKey b s = entryDigit n s := by
  have hquit : hexDigit 0x71 = none := by decide
  have hne : b ≠ 0x71 := by
    rintro rfl
    exact nomatch hquit.symm.trans hd
  rw [entryKey, if_neg hne, hd]

theorem entryKey_invalid (hne : b ≠ 0x71) (hd : hexDigit b = none) (s : State) :
    entryKey b s = clearEntry (say [invalidInput] s) := by
  rw [entryKey, if_neg hne, hd]

/-- A nibble in the high place of a byte is followed by four zeros. -/
theorem toByte_shiftLeft (hi : Nibble) : hi.toByte <<< 4 = hi ++ 0#4 := by
  revert hi; decide

/-- A nibble in the high place joined with a low one is the byte of the two. -/
theorem append_zero_or_toByte (hi lo : Nibble) : (hi ++ 0#4) ||| lo.toByte = hi ++ lo := by
  revert hi lo; decide

theorem entryDigit_first (he : s.host.menu.entry = ⟨false, 0⟩) (hi : Nibble) :
    entryDigit hi s = withEntry ⟨true, hi ++ 0#4⟩ s := by
  simp [entryDigit, he, toByte_shiftLeft, withEntry]

theorem entryDigit_second (he : s.host.menu.entry = ⟨false, 0⟩) (hi lo : Nibble) :
    (entryDigit lo (withEntry ⟨true, hi ++ 0#4⟩ s)).host.menu = { s.host.menu with
      currentState := .busMenu, screenPrinted := false
      addr := setTarget s.host.menu.currentState (hi ++ lo) s.host.menu.addr } := by
  simp [entryDigit, withEntry, append_zero_or_toByte, he]

/-- `q` leaves the addresses alone, whatever the digit entry holds (R174). -/
theorem entryKey_quit (he : s.host.menu.entry = ⟨false, 0⟩) (e : DigitEntry) :
    (entryKey 0x71 (withEntry e s)).host.menu = { s.host.menu with currentState := .busMenu, screenPrinted := false } := by
  simp [entryKey, withEntry, he]

/-- An invalid character empties the digit entry, whatever it holds (R174). -/
theorem menu_entryKey_invalid (he : s.host.menu.entry = ⟨false, 0⟩) (hne : b ≠ 0x71) (hd : hexDigit b = none) (e : DigitEntry) :
    (entryKey b (withEntry e s)).host.menu = s.host.menu := by
  rw [entryKey_invalid hne hd]
  exact congrArg (fun d => { s.host.menu with entry := d }) he.symm

theorem prog_entryKey_invalid (hne : b ≠ 0x71) (hd : hexDigit b = none) (e : DigitEntry) :
    (entryKey b (withEntry e s)).host.prog = .issue (.writeline invalidInput) :: s.host.prog := by
  rw [entryKey_invalid hne hd]
  rfl

/-- Settles O59: the two digits one after the other, then `q` and an invalid character with either digit entry. -/
theorem twoNibbleEntry : Obligations.TwoNibbleEntry := by
  intro s hi lo ch1 ch2 ch he hm hd1 hd2 hne hd
  have hone : menuKey ch1 s = .next (withEntry ⟨true, hi ++ 0#4⟩ s) := by
    rw [menuKey_entry hm, entryKey_digit hd1, entryDigit_first he]
  have htwo : menuKey ch2 (withEntry ⟨true, hi ++ 0#4⟩ s) = .next (entryDigit lo (withEntry ⟨true, hi ++ 0#4⟩ s)) :=
    (menuKey_entry (s := withEntry ⟨true, hi ++ 0#4⟩ s) hm ch2).trans (congrArg _ (entryKey_digit hd2 _))
  refine ⟨_, _, hone, htwo, rfl, entryDigit_second he hi lo, fun u hu => ?_⟩
  obtain ⟨e, rfl⟩ : ∃ e, u = withEntry e s := by
    obtain rfl | rfl := List.mem_pair.mp hu
    · exact ⟨u.host.menu.entry, rfl⟩
    · exact ⟨_, rfl⟩
  exact ⟨_, _, menuKey_entry (s := withEntry e s) hm 0x71, menuKey_entry (s := withEntry e s) hm ch, entryKey_quit he e,
    menu_entryKey_invalid he hne hd e, prog_entryKey_invalid hne hd e⟩

/-! ## BUS_MENU's read -/

theorem showResult_ok (hr : s.seq.res = .ok) (fmt : List Byte → List Byte) (n : Nat) :
    showResult fmt n s = say [fmt (okBytes s)] s := by
  rw [showResult, hr]

theorem showResult_err {e : Reason} (hr : s.seq.res = .err e) (hs : s.cfg.surfaceErr = true) (fmt : List Byte → List Byte)
    (n : Nat) : showResult fmt n s = say [Config.errMessage] s := by
  rw [showResult, hr]
  exact if_pos hs

/-- A READREG of one byte answers the first entry of the receive buffer (R75). -/
theorem okBytes_one (hr : s.seq.res = .ok) (hc : s.seq.cnt = 1) (hb : Memory.read s.seq.rbuf 0 = some b) : okBytes s = [b] := by
  simp [okBytes, rbufAt, hr, hc, hb]

/-- Settles O60: `r` puts the READREG and the look at its result first; the result is one byte or the message. -/
theorem busMenuReadsAndReports : Obligations.BusMenuReadsAndReports := by
  refine ⟨fun s hm => ⟨_, menuKey_busMenu hm 0x72, rfl⟩, fun s b hr hc hb => ⟨_, rfl, ?_⟩, fun s e hr hs => ⟨_, rfl, ?_⟩⟩
  · rw [showResult_ok hr, okBytes_one hr hc hb]
    rfl
  · rw [showResult_err hr hs]
    rfl

end Sys2Proof.Proofs
end

section
/-! PROOFS. What the host sees of an aborted READREG (O13). -/

namespace Sys2Proof.Proofs

open Sys2Proof.Machine Sys2Proof.Laws

variable {s : State}

/-- SEQ masks nothing after an abort, whatever CCH does (R24). -/
theorem maskReq_abort (r : Reason) : maskReq (abort r s) = false := rfl

/-- After an abort only CCH can hold the block busy (R20). -/
theorem busy_abort (hc : s.cch.cph = .idle) (r : Reason) : busy (abort r s) = false := by
  simp [busy, hc]

/-- Settles O13: an abort leaves SEQ idle with `Err` in `RES`, so the result word and the read port are those of O14's
clauses for `Err`. -/
theorem abortShowsErrorResult : Obligations.AbortShowsErrorResult := by
  intro s r hc hk
  obtain ⟨-, -, resWord_err, -⟩ := resultWordFormat (abort r s)
  refine ⟨busy_abort hc r, maskReq_abort r, resWord_err r rfl hk rfl, fun i => ?_⟩
  obtain ⟨-, -, -, -, -, -, -, rbufData_notOk, -⟩ := resultWordFormat (selectRbuf i (abort r s))
  exact rbufData_notOk nofun

end Sys2Proof.Proofs
end

section
/-! PROOFS. The reset event (O37): the block's registers, the flags made of them, and what stays. -/

namespace Sys2Proof.Proofs

open Sys2Proof.Machine Sys2Proof.Laws

/-- SEQ has after the event the registers it starts with (R221). -/
theorem seq_resetBlock (s : State) : (resetBlock s).seq = State.reset.seq := rfl

/-- Both engines are idle after the event, so the block is not busy (R20). -/
theorem busy_resetBlock (s : State) : busy (resetBlock s) = false := rfl

theorem maskReq_resetBlock (s : State) : maskReq (resetBlock s) = false := rfl

theorem cmdReady_resetBlock (s : State) : cmdReady (resetBlock s) = true := by
  rw [cmdReady, busy_resetBlock]
  rfl

/-- The event records nothing, so no byte is pushed by it (R220). -/
theorem txlog_resetBlock (s : State) : txlog (resetBlock s) = txlog s := rfl

/-- Settles O37: SEQ's registers and the menu are those of O38; CCH's are given by the event itself, and the rest of the state
is not among the fields it writes. -/
theorem resetEventValues : Obligations.ResetEventValues := by
  obtain ⟨hph, hidx, hsa, hra, hcnt, hres, hpolls, -, -, -, -, -, -, -, hmenu, hentry⟩ := resetStateValues
  refine ⟨fun s => ⟨resetBlock s, rfl, ?_⟩, hmenu, hentry⟩
  rw [seq_resetBlock]
  exact ⟨hph, hidx, hsa, hra, hcnt, hres, hpolls, rfl, rfl, rfl,
    busy_resetBlock s, maskReq_resetBlock s, rfl, cmdReady_resetBlock s,
    rfl, rfl, rfl, rfl, txlog_resetBlock s, rfl⟩

end Sys2Proof.Proofs
end
